-- ==== Sys2Proof/Word.lean ====
section
/-! DEFINITION. The machine's word types (00_scope.md R7, R9; 30_encoding.md R71): bit 0 is the least significant bit and
every value is unsigned. -/

namespace Sys2Proof

/-- A general register, a timer, a pixel, a byte of memory (10_state.md R21, R30, R31; 20_memory.md R50). -/
abbrev Byte := BitVec 8

/-- An opcode, the index register, the pc, a return address (10_state.md R23, R24, R27; 30_encoding.md R70). -/
abbrev Word := BitVec 16

/-- The fields `x` and `y` of an opcode: the number of a general register (30_encoding.md R71). -/
abbrev RegIdx := BitVec 4

/-- The field `n` of an opcode: a sprite's height in bytes (30_encoding.md R71). -/
abbrev Nibble := BitVec 4

/-- The field `nnn` of an opcode: an address immediate (30_encoding.md R71). -/
abbrev Address := BitVec 12

end Sys2Proof
end

