-- ==== Sys2Proof/Syntax.lean ====
section
/-! DEFINITION. The instruction set (30_encoding.md R75): one constructor per row of spec/opcode_table.json, in the table's
order. Operands have the widths of their fields (R71), so a field out of range cannot be written. -/

namespace Sys2Proof

/-- The 34 instructions of 30_encoding.md R75; beside each its pattern. -/
inductive Instr where
  | cls                             -- 00E0
  | ret                             -- 00EE
  | jp (nnn : Address)              -- 1nnn
  | call (nnn : Address)            -- 2nnn
  | seByte (x : RegIdx) (nn : Byte) -- 3xnn
  | sneByte (x : RegIdx) (nn : Byte) -- 4xnn
  | seReg (x y : RegIdx)            -- 5xy0
  | ldByte (x : RegIdx) (nn : Byte) -- 6xnn
  | addByte (x : RegIdx) (nn : Byte) -- 7xnn
  | ldReg (x y : RegIdx)            -- 8xy0
  | or (x y : RegIdx)               -- 8xy1
  | and (x y : RegIdx)              -- 8xy2
  | xor (x y : RegIdx)              -- 8xy3
  | addReg (x y : RegIdx)           -- 8xy4
  | sub (x y : RegIdx)              -- 8xy5
  | shr (x y : RegIdx)              -- 8xy6
  | subn (x y : RegIdx)             -- 8xy7
  | shl (x y : RegIdx)              -- 8xyE
  | sneReg (x y : RegIdx)           -- 9xy0
  | ldI (nnn : Address)             -- Annn
  | jpV0 (nnn : Address)            -- Bnnn
  | rnd (x : RegIdx) (nn : Byte)    -- Cxnn
  | drw (x y : RegIdx) (n : Nibble) -- Dxyn
  | skp (x : RegIdx)                -- Ex9E
  | sknp (x : RegIdx)               -- ExA1
  | ldVxDt (x : RegIdx)             -- Fx07
  | ldVxK (x : RegIdx)              -- Fx0A
  | ldDtVx (x : RegIdx)             -- Fx15
  | ldStVx (x : RegIdx)             -- Fx18
  | addIVx (x : RegIdx)             -- Fx1E
  | ldFVx (x : RegIdx)              -- Fx29
  | ldBVx (x : RegIdx)              -- Fx33
  | ldMemVx (x : RegIdx)            -- Fx55
  | ldVxMem (x : RegIdx)            -- Fx65
  deriving DecidableEq, Repr

/-- What a 16-bit word decodes to (30_encoding.md R74, R79): one of the 34 instructions, or the unsupported word itself,
which the decoder rejects by this name. -/
inductive Decoded where
  | instr (i : Instr)
  | unsupported (op : Word)
  deriving DecidableEq, Repr

end Sys2Proof
end

