-- ==== Sys2Proof/WellFormed.lean ====
section
/-! DEFINITION. Well-formedness. An `Instr` term is well formed by its type (its operands have their fields' widths), so
what can be ill formed here is a raw word, a row of an opcode table, or a program image given to `load`. -/

namespace Sys2Proof

/-- One row of the opcode map (30_encoding.md R75): a word selects the row when `word &&& mask = match`. -/
structure OpcodeRow where
  mnemonic : String
  bits : Word
  mask : Word
  deriving DecidableEq, Repr

/-- A row is well formed when its match bits lie inside its mask; only then can some word select it. -/
def OpcodeRow.wf (r : OpcodeRow) : Bool := r.bits &&& r.mask == r.bits

/-- The selection rule of 30_encoding.md R74 and R75. -/
def OpcodeRow.selects (r : OpcodeRow) (w : Word) : Bool := w &&& r.mask == r.bits

/-- Rows 1 to 18 of 30_encoding.md R75. -/
def opcodeRowsLow : List OpcodeRow := [
    ⟨"CLS", 0x00E0#16, 0xFFFF#16⟩,
    ⟨"RET", 0x00EE#16, 0xFFFF#16⟩,
    ⟨"JP", 0x1000#16, 0xF000#16⟩,
    ⟨"CALL", 0x2000#16, 0xF000#16⟩,
    ⟨"SE_BYTE", 0x3000#16, 0xF000#16⟩,
    ⟨"SNE_BYTE", 0x4000#16, 0xF000#16⟩,
    ⟨"SE_REG", 0x5000#16, 0xF00F#16⟩,
    ⟨"LD_BYTE", 0x6000#16, 0xF000#16⟩,
    ⟨"ADD_BYTE", 0x7000#16, 0xF000#16⟩,
    ⟨"LD_REG", 0x8000#16, 0xF00F#16⟩,
    ⟨"OR", 0x8001#16, 0xF00F#16⟩,
    ⟨"AND", 0x8002#16, 0xF00F#16⟩,
    ⟨"XOR", 0x8003#16, 0xF00F#16⟩,
    ⟨"ADD_REG", 0x8004#16, 0xF00F#16⟩,
    ⟨"SUB", 0x8005#16, 0xF00F#16⟩,
    ⟨"SHR", 0x8006#16, 0xF00F#16⟩,
    ⟨"SUBN", 0x8007#16, 0xF00F#16⟩,
    ⟨"SHL", 0x800E#16, 0xF00F#16⟩]

/-- Rows 19 to 34 of 30_encoding.md R75. -/
def opcodeRowsHigh : List OpcodeRow := [
    ⟨"SNE_REG", 0x9000#16, 0xF00F#16⟩,
    ⟨"LD_I", 0xA000#16, 0xF000#16⟩,
    ⟨"JP_V0", 0xB000#16, 0xF000#16⟩,
    ⟨"RND", 0xC000#16, 0xF000#16⟩,
    ⟨"DRW", 0xD000#16, 0xF000#16⟩,
    ⟨"SKP", 0xE09E#16, 0xF0FF#16⟩,
    ⟨"SKNP", 0xE0A1#16, 0xF0FF#16⟩,
    ⟨"LD_VX_DT", 0xF007#16, 0xF0FF#16⟩,
    ⟨"LD_VX_K", 0xF00A#16, 0xF0FF#16⟩,
    ⟨"LD_DT_VX", 0xF015#16, 0xF0FF#16⟩,
    ⟨"LD_ST_VX", 0xF018#16, 0xF0FF#16⟩,
    ⟨"ADD_I_VX", 0xF01E#16, 0xF0FF#16⟩,
    ⟨"LD_F_VX", 0xF029#16, 0xF0FF#16⟩,
    ⟨"LD_B_VX", 0xF033#16, 0xF0FF#16⟩,
    ⟨"LD_MEM_VX", 0xF055#16, 0xF0FF#16⟩,
    ⟨"LD_VX_MEM", 0xF065#16, 0xF0FF#16⟩]

/-- The opcode map of 30_encoding.md R75, in its order. -/
def opcodeTable : List OpcodeRow := opcodeRowsLow ++ opcodeRowsHigh

/-- The row of an instruction (30_encoding.md R75). -/
def Instr.row : Instr → OpcodeRow
  | .cls => ⟨"CLS", 0x00E0#16, 0xFFFF#16⟩
  | .ret => ⟨"RET", 0x00EE#16, 0xFFFF#16⟩
  | .jp _ => ⟨"JP", 0x1000#16, 0xF000#16⟩
  | .call _ => ⟨"CALL", 0x2000#16, 0xF000#16⟩
  | .seByte _ _ => ⟨"SE_BYTE", 0x3000#16, 0xF000#16⟩
  | .sneByte _ _ => ⟨"SNE_BYTE", 0x4000#16, 0xF000#16⟩
  | .seReg _ _ => ⟨"SE_REG", 0x5000#16, 0xF00F#16⟩
  | .ldByte _ _ => ⟨"LD_BYTE", 0x6000#16, 0xF000#16⟩
  | .addByte _ _ => ⟨"ADD_BYTE", 0x7000#16, 0xF000#16⟩
  | .ldReg _ _ => ⟨"LD_REG", 0x8000#16, 0xF00F#16⟩
  | .or _ _ => ⟨"OR", 0x8001#16, 0xF00F#16⟩
  | .and _ _ => ⟨"AND", 0x8002#16, 0xF00F#16⟩
  | .xor _ _ => ⟨"XOR", 0x8003#16, 0xF00F#16⟩
  | .addReg _ _ => ⟨"ADD_REG", 0x8004#16, 0xF00F#16⟩
  | .sub _ _ => ⟨"SUB", 0x8005#16, 0xF00F#16⟩
  | .shr _ _ => ⟨"SHR", 0x8006#16, 0xF00F#16⟩
  | .subn _ _ => ⟨"SUBN", 0x8007#16, 0xF00F#16⟩
  | .shl _ _ => ⟨"SHL", 0x800E#16, 0xF00F#16⟩
  | .sneReg _ _ => ⟨"SNE_REG", 0x9000#16, 0xF00F#16⟩
  | .ldI _ => ⟨"LD_I", 0xA000#16, 0xF000#16⟩
  | .jpV0 _ => ⟨"JP_V0", 0xB000#16, 0xF000#16⟩
  | .rnd _ _ => ⟨"RND", 0xC000#16, 0xF000#16⟩
  | .drw _ _ _ => ⟨"DRW", 0xD000#16, 0xF000#16⟩
  | .skp _ => ⟨"SKP", 0xE09E#16, 0xF0FF#16⟩
  | .sknp _ => ⟨"SKNP", 0xE0A1#16, 0xF0FF#16⟩
  | .ldVxDt _ => ⟨"LD_VX_DT", 0xF007#16, 0xF0FF#16⟩
  | .ldVxK _ => ⟨"LD_VX_K", 0xF00A#16, 0xF0FF#16⟩
  | .ldDtVx _ => ⟨"LD_DT_VX", 0xF015#16, 0xF0FF#16⟩
  | .ldStVx _ => ⟨"LD_ST_VX", 0xF018#16, 0xF0FF#16⟩
  | .addIVx _ => ⟨"ADD_I_VX", 0xF01E#16, 0xF0FF#16⟩
  | .ldFVx _ => ⟨"LD_F_VX", 0xF029#16, 0xF0FF#16⟩
  | .ldBVx _ => ⟨"LD_B_VX", 0xF033#16, 0xF0FF#16⟩
  | .ldMemVx _ => ⟨"LD_MEM_VX", 0xF055#16, 0xF0FF#16⟩
  | .ldVxMem _ => ⟨"LD_VX_MEM", 0xF065#16, 0xF0FF#16⟩

/-- A word is well formed when it selects a row; every other word is unsupported (30_encoding.md R76, R77). -/
def wellFormedWord (w : Word) : Bool := opcodeTable.any (·.selects w)

/-- A program image fits in memory from 0x200 on: at most 3584 bytes (70_reset_and_hazards.md R243). -/
def wellFormedImage (bytes : List Byte) : Bool := bytes.length ≤ 4096 - 0x200

end Sys2Proof
end

