-- ==== Sys2Proof/Decode.lean ====
section
/-! DEFINITION. The decoder (30_encoding.md R70 to R79), total on words and on bytes, and after it the encoder, written from
the `Encoding:` line of each instruction's rule. -/

namespace Sys2Proof

/-! ### Fields (30_encoding.md R71) -/

/-- `f`, `op[15:12]`: the family. -/
def fieldF (op : Word) : BitVec 4 := op.extractLsb' 12 4
/-- `x`, `op[11:8]`. -/
def fieldX (op : Word) : RegIdx := op.extractLsb' 8 4
/-- `y`, `op[7:4]`. -/
def fieldY (op : Word) : RegIdx := op.extractLsb' 4 4
/-- `n`, `op[3:0]`. -/
def fieldN (op : Word) : Nibble := op.extractLsb' 0 4
/-- `nn`, `op[7:0]`. -/
def fieldNN (op : Word) : Byte := op.extractLsb' 0 8
/-- `nnn`, `op[11:0]`. -/
def fieldNNN (op : Word) : Address := op.extractLsb' 0 12

/-! ### The two-level dispatch (30_encoding.md R74, R76) -/

/-- Family 0: exactly 0x00E0 and 0x00EE. -/
def decodeFamily0 (op : Word) : Decoded :=
  match fieldNNN op with
  | 0x0E0#12 => .instr .cls
  | 0x0EE#12 => .instr .ret
  | _ => .unsupported op

/-- Family 5: 5xy0 only. -/
def decodeFamily5 (op : Word) : Decoded :=
  match fieldN op with
  | 0x0#4 => .instr (.seReg (fieldX op) (fieldY op))
  | _ => .unsupported op

/-- Family 8: the low nibble selects the operation (the pairing of 6, 7 and E is D5; assumption 15). -/
def decodeFamily8 (op : Word) : Decoded :=
  match fieldN op with
  | 0x0#4 => .instr (.ldReg (fieldX op) (fieldY op))
  | 0x1#4 => .instr (.or (fieldX op) (fieldY op))
  | 0x2#4 => .instr (.and (fieldX op) (fieldY op))
  | 0x3#4 => .instr (.xor (fieldX op) (fieldY op))
  | 0x4#4 => .instr (.addReg (fieldX op) (fieldY op))
  | 0x5#4 => .instr (.sub (fieldX op) (fieldY op))
  | 0x6#4 => .instr (.shr (fieldX op) (fieldY op))
  | 0x7#4 => .instr (.subn (fieldX op) (fieldY op))
  | 0xE#4 => .instr (.shl (fieldX op) (fieldY op))
  | _ => .unsupported op

/-- Family 9: 9xy0 only. -/
def decodeFamily9 (op : Word) : Decoded :=
  match fieldN op with
  | 0x0#4 => .instr (.sneReg (fieldX op) (fieldY op))
  | _ => .unsupported op

/-- Family E: the low byte selects. -/
def decodeFamilyE (op : Word) : Decoded :=
  match fieldNN op with
  | 0x9E#8 => .instr (.skp (fieldX op))
  | 0xA1#8 => .instr (.sknp (fieldX op))
  | _ => .unsupported op

/-- Family F: the low byte selects. -/
def decodeFamilyF (op : Word) : Decoded :=
  match fieldNN op with
  | 0x07#8 => .instr (.ldVxDt (fieldX op))
  | 0x0A#8 => .instr (.ldVxK (fieldX op))
  | 0x15#8 => .instr (.ldDtVx (fieldX op))
  | 0x18#8 => .instr (.ldStVx (fieldX op))
  | 0x1E#8 => .instr (.addIVx (fieldX op))
  | 0x29#8 => .instr (.ldFVx (fieldX op))
  | 0x33#8 => .instr (.ldBVx (fieldX op))
  | 0x55#8 => .instr (.ldMemVx (fieldX op))
  | 0x65#8 => .instr (.ldVxMem (fieldX op))
  | _ => .unsupported op

/-- Dispatch (40_cycle_engine.md R104): select the family by the top nibble, then its handler. Total (30_encoding.md R79). -/
def decode (op : Word) : Decoded :=
  match fieldF op with
  | 0x0#4 => decodeFamily0 op
  | 0x1#4 => .instr (.jp (fieldNNN op))
  | 0x2#4 => .instr (.call (fieldNNN op))
  | 0x3#4 => .instr (.seByte (fieldX op) (fieldNN op))
  | 0x4#4 => .instr (.sneByte (fieldX op) (fieldNN op))
  | 0x5#4 => decodeFamily5 op
  | 0x6#4 => .instr (.ldByte (fieldX op) (fieldNN op))
  | 0x7#4 => .instr (.addByte (fieldX op) (fieldNN op))
  | 0x8#4 => decodeFamily8 op
  | 0x9#4 => decodeFamily9 op
  | 0xA#4 => .instr (.ldI (fieldNNN op))
  | 0xB#4 => .instr (.jpV0 (fieldNNN op))
  | 0xC#4 => .instr (.rnd (fieldX op) (fieldNN op))
  | 0xD#4 => .instr (.drw (fieldX op) (fieldY op) (fieldN op))
  | 0xE#4 => decodeFamilyE op
  | _ => decodeFamilyF op

/-- Byte order of an opcode (20_memory.md R54): the byte at the lower address is bits 15..8. -/
def wordOfBytes (lower higher : Byte) : Word := lower ++ higher

/-- The two bytes of an opcode, the one of the lower address first (20_memory.md R54). -/
def bytesOfWord (op : Word) : Byte × Byte := (op.extractLsb' 8 8, op.extractLsb' 0 8)

/-- The decoder on bytes: it always takes two (30_encoding.md R70) and hands back the rest; none when fewer are left. -/
def decodeBytes : List Byte → Option (Decoded × List Byte)
  | b0 :: b1 :: rest => some (decode (wordOfBytes b0 b1), rest)
  | _ => none

/-! ### The encoder (30_encoding.md R72 and the `Encoding:` line of each rule) -/

/-- Format ADDR: `ffff aaaa aaaa aaaa`. -/
def encodeAddr (bits : Word) (nnn : Address) : Word := bits ||| nnn.setWidth 16

/-- Format XBYTE: `ffff xxxx kkkk kkkk`. -/
def encodeXByte (bits : Word) (x : RegIdx) (nn : Byte) : Word := bits ||| (x.setWidth 16 <<< 8) ||| nn.setWidth 16

/-- Format XYSUB: `ffff xxxx yyyy ssss`. -/
def encodeXYSub (bits : Word) (x y : RegIdx) : Word := bits ||| (x.setWidth 16 <<< 8) ||| (y.setWidth 16 <<< 4)

/-- Format XYN: `ffff xxxx yyyy nnnn`. -/
def encodeXYN (bits : Word) (x y : RegIdx) (n : Nibble) : Word :=
  bits ||| (x.setWidth 16 <<< 8) ||| (y.setWidth 16 <<< 4) ||| n.setWidth 16

/-- Format XSUB: `ffff xxxx ssss ssss`. -/
def encodeXSub (bits : Word) (x : RegIdx) : Word := bits ||| (x.setWidth 16 <<< 8)

/-- The word of an instruction. -/
def encode : Instr → Word
  | .cls => 0x00E0#16
  | .ret => 0x00EE#16
  | .jp nnn => encodeAddr 0x1000#16 nnn
  | .call nnn => encodeAddr 0x2000#16 nnn
  | .seByte x nn => encodeXByte 0x3000#16 x nn
  | .sneByte x nn => encodeXByte 0x4000#16 x nn
  | .seReg x y => encodeXYSub 0x5000#16 x y
  | .ldByte x nn => encodeXByte 0x6000#16 x nn
  | .addByte x nn => encodeXByte 0x7000#16 x nn
  | .ldReg x y => encodeXYSub 0x8000#16 x y
  | .or x y => encodeXYSub 0x8001#16 x y
  | .and x y => encodeXYSub 0x8002#16 x y
  | .xor x y => encodeXYSub 0x8003#16 x y
  | .addReg x y => encodeXYSub 0x8004#16 x y
  | .sub x y => encodeXYSub 0x8005#16 x y
  | .shr x y => encodeXYSub 0x8006#16 x y
  | .subn x y => encodeXYSub 0x8007#16 x y
  | .shl x y => encodeXYSub 0x800E#16 x y
  | .sneReg x y => encodeXYSub 0x9000#16 x y
  | .ldI nnn => encodeAddr 0xA000#16 nnn
  | .jpV0 nnn => encodeAddr 0xB000#16 nnn
  | .rnd x nn => encodeXByte 0xC000#16 x nn
  | .drw x y n => encodeXYN 0xD000#16 x y n
  | .skp x => encodeXSub 0xE09E#16 x
  | .sknp x => encodeXSub 0xE0A1#16 x
  | .ldVxDt x => encodeXSub 0xF007#16 x
  | .ldVxK x => encodeXSub 0xF00A#16 x
  | .ldDtVx x => encodeXSub 0xF015#16 x
  | .ldStVx x => encodeXSub 0xF018#16 x
  | .addIVx x => encodeXSub 0xF01E#16 x
  | .ldFVx x => encodeXSub 0xF029#16 x
  | .ldBVx x => encodeXSub 0xF033#16 x
  | .ldMemVx x => encodeXSub 0xF055#16 x
  | .ldVxMem x => encodeXSub 0xF065#16 x

/-- The one 16-bit word of an instruction given as `nbits` bits of `w`, every bit above them 0 (30_encoding.md R70). -/
def tableWord (nbits w : Nat) : Word := BitVec.ofNat 16 (w % 2 ^ nbits)

/-- The instruction the decoder reads from an opcode-table word: its two bytes are laid out as the hardware stores them and
given to `decodeBytes`. -/
def decodeTableWord (nbits w : Nat) : Option Instr :=
  let b := bytesOfWord (tableWord nbits w)
  match decodeBytes [b.1, b.2] with
  | some (.instr i, _) => some i
  | _ => none

end Sys2Proof
end

