-- ==== Sys2Proof/Machine/Gfx.lean ====
section
/-! DEFINITION. The framebuffer `gfx[0..2048]` (10_state.md R31): one byte per pixel, pixel (x, y) at index `x + y*64`. The
list carries the proof of its length, so a framebuffer of another size cannot be built (assumption 13). -/

namespace Sys2Proof.Machine

structure Gfx where
  cells : List Byte
  size : cells.length = 2048
  deriving DecidableEq, Repr

namespace Gfx

/-- `gfx[k]`. -/
def get (g : Gfx) (k : Fin 2048) : Byte := g.cells.getD k.val 0x00#8

/-- `gfx[k] <- v`. -/
def set (g : Gfx) (k : Fin 2048) (v : Byte) : Gfx :=
  ⟨g.cells.set k.val v, (List.length_set ..).trans g.size⟩

/-- Every pixel off. -/
def blank : Gfx := ⟨List.replicate 2048 0x00#8, List.length_replicate⟩

end Gfx

/-- The index of a pixel, its column taken mod 64 and its row mod 32 (44_display.md R181, R183). -/
def cellIndex (x y : Nat) : Fin 2048 := ⟨x % 64 + y % 32 * 64, by omega⟩

end Sys2Proof.Machine
end

