-- ==== Sys2Proof/Config.lean ====
section
/-! DEFINITION. What an implementation fixes and the free values (00_scope.md R8): the TYPES of the parameters that change
results, and the free random byte. The values the spec takes for the parameters are in Sys2Proof/Machine/Params.lean. -/

namespace Sys2Proof

/-- Parameter `SHIFT_SOURCE` (00_scope.md R8, 42_alu.md R149): which register 8xy6 and 8xyE shift. -/
inductive ShiftSource where
  | vx
  | vy
  deriving DecidableEq, Repr

/-- Parameter `DATA_OOB_POLICY` (00_scope.md R8, 20_memory.md R56): what a data address above 0xFFF does. -/
inductive DataOobPolicy where
  | reject
  | clamp
  deriving DecidableEq, Repr

/-- Parameter `FONT` (00_scope.md R8, 70_reset_and_hazards.md R241): the 80 bytes of the 16 hexadecimal glyphs, glyph d at 5d. -/
abbrev Font := Vector Byte 80

/-- Parameter `RAND` (00_scope.md R8, 60_exceptions.md R228; assumption 5): the byte the random source gives at its
`k`-th draw when the host has supplied none beforehand. FREE: no body, no law. -/
opaque Config.randByte : Nat → Byte

end Sys2Proof
end

