-- ==== Sys2Proof/Machine/Params.lean ====
section
/-! DEFINITION. The values the spec takes for its parameters (00_scope.md R8). The meanings that depend on one are written for
every value of it (`execShrWith`, `execDrwWith`, …), and creation and reset for every FONT (`created`, `hostResetWith`); `exec` uses the values of this file. PC_WIDTH = 16 is `Word`. -/

namespace Sys2Proof.Machine

/-- `SHIFT_SOURCE`, default VX (D6; assumption 2). -/
def shiftSource : ShiftSource := .vx

/-- `DATA_OOB_POLICY`, default REJECT (D11; assumption 3). -/
def dataOobPolicy : DataOobPolicy := .reject

/-- Glyphs 0 to 7 of the table of 70_reset_and_hazards.md R241. -/
def fontLow : List Byte :=
  [0xF0, 0x90, 0x90, 0x90, 0xF0] ++ [0x20, 0x60, 0x20, 0x20, 0x70] ++
  [0xF0, 0x10, 0xF0, 0x80, 0xF0] ++ [0xF0, 0x10, 0xF0, 0x10, 0xF0] ++
  [0x90, 0x90, 0xF0, 0x10, 0x10] ++ [0xF0, 0x80, 0xF0, 0x10, 0xF0] ++
  [0xF0, 0x80, 0xF0, 0x90, 0xF0] ++ [0xF0, 0x10, 0x20, 0x40, 0x40]

/-- Glyphs 8 to F of the table of 70_reset_and_hazards.md R241. -/
def fontHigh : List Byte :=
  [0xF0, 0x90, 0xF0, 0x90, 0xF0] ++ [0xF0, 0x90, 0xF0, 0x10, 0xF0] ++
  [0xF0, 0x90, 0xF0, 0x90, 0x90] ++ [0xE0, 0x90, 0xE0, 0x90, 0xE0] ++
  [0xF0, 0x80, 0x80, 0x80, 0xF0] ++ [0xE0, 0x90, 0x90, 0x90, 0xE0] ++
  [0xF0, 0x80, 0xF0, 0x80, 0xF0] ++ [0xF0, 0x80, 0xF0, 0x80, 0x80]

/-- The bytes of the table of 70_reset_and_hazards.md R241, glyph d at 5d (D25; assumption 4). -/
def fontBytes : List Byte := fontLow ++ fontHigh

/-- `FONT`, default the table of 70_reset_and_hazards.md R241 (D25; assumption 4). -/
def font : Font := ⟨fontBytes.toArray, rfl⟩

end Sys2Proof.Machine
end

