-- ==== Sys2Proof/Machine/Memory.lean ====
section
/-! DEFINITION. Memory: 4096 bytes (20_memory.md R50) as a list of cells in one canonical form: addresses strictly rising and
below 4096, and no cell equal to what its address reads as when unlisted. -/

namespace Sys2Proof.Machine

abbrev Memory := List Host.Cell

namespace Memory

/-- What an unlisted address reads as: its reset byte under the default FONT (10_state.md R37), which is FONT's in 0..80 and 0x00
above. It only fixes which cells are listed; under another FONT the bytes that differ are listed (`created`; assumption 14). -/
def unlisted (a : Nat) : Byte := fontBytes.getD a 0x00#8

/-- `MemRead(a, 1)` (00_scope.md R11). Only addresses up to 0xFFF exist; every reader checks or clamps first (assumption 14). -/
def read : Memory → Nat → Byte
  | [], a => unlisted a
  | (b, v) :: m, a => if b = a then v else read m a

/-- Put the byte `v` at `a`, keeping the canonical form. -/
def put : Memory → Nat → Byte → Memory
  | [], a, v => if v = unlisted a then [] else [(a, v)]
  | (b, w) :: m, a, v =>
    if a < b then (if v = unlisted a then (b, w) :: m else (a, v) :: (b, w) :: m)
    else if a = b then (if v = unlisted a then m else (a, v) :: m)
    else (b, w) :: put m a v

/-- `MemWrite(a, 1, v)` (00_scope.md R11). An address above 0xFFF does not exist: nothing is stored (assumption 14). -/
def write (m : Memory) (a : Nat) (v : Byte) : Memory := if a < 4096 then put m a v else m

/-- The canonical form, from address `lo` on. -/
def wfFrom : Nat → Memory → Bool
  | _, [] => true
  | lo, (b, v) :: m => decide (lo ≤ b) && decide (b < 4096) && decide (v ≠ unlisted b) && wfFrom (b + 1) m

/-- The canonical form. -/
def wf (m : Memory) : Bool := wfFrom 0 m

end Memory
end Sys2Proof.Machine
end

