-- ==== Sys2Proof/Machine/State.lean ====
section
/-! DEFINITION. The Machine State (10_state.md R20), the inputs a step reads, the value a step returns, and reset. -/

namespace Sys2Proof.Machine

/-- The fatal errors a step can raise, each with what it records (60_exceptions.md R211). -/
inductive FatalError where
  | outOfBoundsFetch (pc : Word)
  | stackOverflow (pc op : Word)
  | stackUnderflow (pc op : Word)
  /-- `addr` is the lowest out-of-range address, an exact integer (00_scope.md R11). -/
  | outOfBoundsAccess (pc op : Word) (addr : Nat)
  deriving DecidableEq, Repr

/-- The run sub-state (10_state.md R33). -/
inductive RunState where
  | running
  | awaitingKey (x : RegIdx)
  | halted (e : FatalError)
  deriving DecidableEq, Repr

/-- What an UnsupportedOpcode report carries (60_exceptions.md R214). -/
structure UnsupportedReport where
  pc : Word
  op : Word
  deriving DecidableEq, Repr

/-- The events of one step: at most one Beep and at most one UnsupportedOpcode (40_cycle_engine.md R109). -/
structure Events where
  beep : Bool
  unsupported : Option UnsupportedReport
  deriving DecidableEq, Repr

/-- The empty set of events. -/
def Events.none : Events := ⟨false, Option.none⟩

/-- What `step()` returns to its caller (40_cycle_engine.md R100). -/
inductive StepResult where
  | ok (events : Events)
  | err (e : FatalError)
  deriving DecidableEq, Repr

/-- Reasons a step stops without a next state. There is NONE: a fatal error of this hardware has a next state, `Halted(e)`
(60_exceptions.md R216, R217), and every meaning answers it (assumption 8). -/
inductive Fault where
  deriving DecidableEq, Repr

/-- Refusals of the model itself. -/
inductive Refusal where
  /-- Raised by `exec`'s arm of an instruction that has no meaning yet; safe. No arm of this model raises it. -/
  | notModelled (mnemonic : String)
  deriving DecidableEq, Repr

/-- The state. The first eleven fields are the Machine State of 10_state.md R20; `keys` and `randSupply` are its inputs (R34,
60_exceptions.md R228); `randDraws` and `result` are the model's own. -/
structure State where
  /-- `memory` (20_memory.md R50). -/
  mem : Memory
  /-- `V[0..16]` (10_state.md R21). -/
  v : Vector Byte 16
  /-- `I` (10_state.md R23). -/
  i : Word
  /-- `pc` (10_state.md R24). -/
  pc : Word
  /-- `stack[0..16]` (10_state.md R27). -/
  stack : Vector Word 16
  /-- `sp`, 0 to 16 inclusive (10_state.md R27, R29; assumption 13). -/
  sp : Fin 17
  /-- `DT` (10_state.md R30). -/
  dt : Byte
  /-- `ST` (10_state.md R30). -/
  st : Byte
  /-- `gfx[0..2048]` (10_state.md R31). -/
  gfx : Gfx
  /-- `draw_flag` (10_state.md R32). -/
  drawFlag : Bool
  /-- `run_state` (10_state.md R33). -/
  runState : RunState
  /-- Input: the Key State (10_state.md R34; assumption 6). -/
  keys : Vector Bool 16
  /-- Input: the random bytes supplied and not yet taken, oldest first (60_exceptions.md R228; assumption 5). -/
  randSupply : List Byte
  /-- The model's own: random bytes taken so far; it numbers `Config.randByte` (assumption 5). -/
  randDraws : Nat
  /-- The model's own: what the last step returned (40_cycle_engine.md R100; assumption 7). -/
  result : StepResult
  deriving DecidableEq, Repr

/-- The created state under the default FONT, which is the reset state (70_reset_and_hazards.md R240, R242; 10_state.md R37);
`created` gives it for any FONT. `keys`, `randSupply`,
`randDraws` and `result` are no Machine State: their values here are DESIGN CHOICE (assumptions 5, 6, 7). -/
def State.reset : State where
  mem := []
  v := Vector.replicate 16 0x00#8
  i := 0x0000#16
  pc := 0x0200#16
  stack := Vector.replicate 16 0x0000#16
  sp := 0
  dt := 0x00#8
  st := 0x00#8
  gfx := Gfx.blank
  drawFlag := false
  runState := .running
  keys := Vector.replicate 16 false
  randSupply := []
  randDraws := 0
  result := .ok Events.none

/-- What one instruction, or one step, answers. -/
abbrev Answer := Host.Outcome State Fault Refusal

end Sys2Proof.Machine
end

