-- ==== Sys2Proof/Machine/Ops.lean ====
section
/-! DEFINITION. The shared operations over registers, pc, stack and memory, and the one operation that enters a fatal error. -/

namespace Sys2Proof.Machine

namespace State

/-! ### General registers (10_state.md R21) -/

/-- `V[x]`. -/
def reg (s : State) (x : RegIdx) : Byte := s.v[x.toNat]

/-- `V[x] <- b`. -/
def setReg (s : State) (x : RegIdx) (b : Byte) : State := { s with v := s.v.set x.toNat b }

/-! ### Program counter (10_state.md R24, R25; 41_control_flow.md R120) -/

/-- `pc <- target`. -/
def setPc (s : State) (target : Word) : State := { s with pc := target }

/-- `pc <- pc + 2`. -/
def advance (s : State) : State := s.setPc (s.pc + 2)

/-- `Skip(c)` (41_control_flow.md R120). -/
def skipIf (s : State) (c : Bool) : State := s.setPc (if c then s.pc + 4 else s.pc + 2)

/-! ### The other single registers -/

/-- `I <- w`. -/
def setI (s : State) (w : Word) : State := { s with i := w }

/-- `DT <- b`. -/
def setDt (s : State) (b : Byte) : State := { s with dt := b }

/-- `ST <- b`. -/
def setSt (s : State) (b : Byte) : State := { s with st := b }

/-- `run_state <- r`. -/
def setRunState (s : State) (r : RunState) : State := { s with runState := r }

/-- Replace memory. -/
def setMem (s : State) (m : Memory) : State := { s with mem := m }

/-- Replace the framebuffer and signal redraw (10_state.md R32). -/
def redraw (s : State) (g : Gfx) : State := { s with gfx := g, drawFlag := true }

/-! ### The call stack (10_state.md R27 to R29) -/

/-- Push a return address; none when sp = 16 (41_control_flow.md R123). -/
def push? (s : State) (w : Word) : Option State :=
  if h : s.sp.val < 16 then
    some { s with stack := s.stack.set s.sp.val w, sp := ⟨s.sp.val + 1, by omega⟩ }
  else none

/-- Pop a return address; none when sp = 0. The popped entry keeps its value (41_control_flow.md R121, 10_state.md R28). -/
def pop? (s : State) : Option (Word × State) :=
  if h : 0 < s.sp.val then
    some (s.stack[s.sp.val - 1], { s with sp := ⟨s.sp.val - 1, by omega⟩ })
  else none

/-! ### Random source (60_exceptions.md R228) -/

/-- `rand()`: one byte, the oldest supplied or, when none is supplied, a free one (42_alu.md R152; assumption 5). -/
def randByte (s : State) : Byte :=
  match s.randSupply with
  | b :: _ => b
  | [] => Config.randByte s.randDraws

/-- The random source after one byte is taken. -/
def takeRand (s : State) : State := { s with randSupply := s.randSupply.tail, randDraws := s.randDraws + 1 }

end State

/-! ### Fatal errors (60_exceptions.md R211, R216) -/

/-- The code the spec assigns to a fatal error (60_exceptions.md R211). -/
def FatalError.code : FatalError → Nat
  | .outOfBoundsFetch _ => 1
  | .stackOverflow _ _ => 2
  | .stackUnderflow _ _ => 3
  | .outOfBoundsAccess _ _ _ => 4

/-- Fatal entry (60_exceptions.md R216): from the state at the start of the step, run_state becomes `Halted(e)` and the step
returns `Err(e)`; nothing else changes. Its return is the host's reset alone (R217): `hostReset`. -/
def raiseFatal (e : FatalError) (s : State) : State := { s with runState := .halted e, result := .err e }

/-! ### Data accesses (20_memory.md R53, R56) -/

/-- The data addresses `base + k`, k in 0..count, as exact integers (00_scope.md R11). -/
def dataAddrs (base count : Nat) : List Nat := (List.range count).map (base + ·)

/-- `CheckData` (20_memory.md R56): the address `OutOfBoundsAccess` records, if it is raised. -/
def checkData (p : DataOobPolicy) (addrs : List Nat) : Option Nat :=
  match p with
  | .reject => (addrs.filter (fun a => decide (0xFFF < a))).min?
  | .clamp => none

/-- The address an access uses (20_memory.md R56): under CLAMP `min(a, 0xFFF)`. -/
def dataAddr (p : DataOobPolicy) (a : Nat) : Nat :=
  match p with
  | .reject => a
  | .clamp => min a 0xFFF

/-- Do the data accesses of instruction `ins` at `addrs`: `OutOfBoundsAccess` before any of them if `CheckData` raises it, else
the state `t` they lead to. `op` is the instruction's word (assumption 12). -/
def withCheckedData (p : DataOobPolicy) (addrs : List Nat) (ins : Instr) (s t : State) : Answer :=
  match checkData p addrs with
  | some a => .next (raiseFatal (.outOfBoundsAccess s.pc (encode ins) a) s)
  | none => .next t

/-- Store bytes one after another from address `a` on (43_index_memory.md R163, R164). -/
def storeBytes (p : DataOobPolicy) : Memory → Nat → List Byte → Memory
  | m, _, [] => m
  | m, a, b :: bs => storeBytes p (m.write (dataAddr p a) b) (a + 1) bs

/-- Load `V[k]` from `memory[I + k]` for k in 0..count (43_index_memory.md R165). -/
def loadRegs (p : DataOobPolicy) (count : Nat) (s : State) : State :=
  (List.range count).foldl (fun t k => t.setReg (BitVec.ofNat 4 k) (s.mem.read (dataAddr p (s.i.toNat + k)))) s

end Sys2Proof.Machine
end

