-- ==== Sys2Proof/Machine/Operands.lean ====
section
/-! DEFINITION. How operands are read: zero-extension of immediates (30_encoding.md R73), the shift source (42_alu.md R149), key
levels (45_timers_keys.md R192) and the register list of Fx55 and Fx65. -/

namespace Sys2Proof.Machine

/-- `zext_16` of an address immediate (30_encoding.md R73). -/
def zextAddr (nnn : Address) : Word := nnn.setWidth 16

/-- `zext_16` of a register value. -/
def zextByte (b : Byte) : Word := b.setWidth 16

namespace State

/-- The operand of SHR and SHL (42_alu.md R149, R151): Vx or Vy by `SHIFT_SOURCE`. -/
def shiftOperand (src : ShiftSource) (x y : RegIdx) (s : State) : Byte :=
  match src with
  | .vx => s.reg x
  | .vy => s.reg y

/-- `pressed(k)` for k in 0..16 (60_exceptions.md R226). -/
def pressed (s : State) (k : Fin 16) : Bool := s.keys[k.val]

/-- `KeyDown(v)` (45_timers_keys.md R192): a value of 16 or more names no key. -/
def keyDown (s : State) (b : Byte) : Bool := if h : b.toNat < 16 then s.pressed ⟨b.toNat, h⟩ else false

/-- `min { k in 0..16 | pressed(k) }`, if some key is held (40_cycle_engine.md R110). -/
def lowestKey (s : State) : Option (Fin 16) := (List.finRange 16).find? s.pressed

/-- `V[0], …, V[x]` (43_index_memory.md R164). -/
def regsUpTo (s : State) (x : RegIdx) : List Byte := (List.range (x.toNat + 1)).map fun k => s.reg (BitVec.ofNat 4 k)

end State

/-- Complete Fx0A with key `k` (45_timers_keys.md R194, 40_cycle_engine.md R110). -/
def takeKey (x : RegIdx) (k : Fin 16) (s : State) : State :=
  ((s.setReg x (BitVec.ofNat 8 k.val)).advance).setRunState .running

end Sys2Proof.Machine
end

