-- ==== Sys2Proof/Machine/Flags.lean ====
section
/-! DEFINITION. VF as the flag (10_state.md R22): the carry, borrow, shifted-out bit and collision, each computed from the exact
operands, and the order of the result and flag writes (42_alu.md R140). -/

namespace Sys2Proof.Machine

/-- VF is V[15] (10_state.md R22). -/
def vf : RegIdx := 15#4

/-- A flag as a register value: 1 or 0. -/
def flagByte (b : Bool) : Byte := if b then 0x01#8 else 0x00#8

/-- Carry out of bit 7 (42_alu.md R147): the exact sum exceeds 255. -/
def carryOut (a b : Byte) : Bool := decide (255 < a.toNat + b.toNat)

/-- Borrow of `a - b` (42_alu.md R148): the minuend is the smaller. -/
def borrowOut (a b : Byte) : Bool := decide (a.toNat < b.toNat)

/-- The bit a right shift by one pushes out (42_alu.md R149). -/
def shiftedOutRight (b : Byte) : Bool := b.getLsbD 0

/-- The bit a left shift by one pushes out (42_alu.md R151). -/
def shiftedOutLeft (b : Byte) : Bool := b.getLsbD 7

/-- `V[x] <- r`, then `V[15] <- f` (42_alu.md R140). -/
def writeResultThenFlag (x : RegIdx) (r : Byte) (f : Bool) (s : State) : State := (s.setReg x r).setReg vf (flagByte f)

end Sys2Proof.Machine
end

