-- ==== Sys2Proof/Machine/Alu.lean ====
section
/-! DEFINITION. The register-file ALU (42_alu.md): load and add immediate, the 8xy family, random. -/

namespace Sys2Proof.Machine

/-- Write one register, no flag, and go on: the shape of 6xnn, 7xnn and 8xy0 to 8xy3. -/
def writeReg (x : RegIdx) (r : Byte) (s : State) : Answer := .next (s.setReg x r).advance

/-- Write a result and then the flag, and go on: the shape of 8xy4 to 8xyE (42_alu.md R140). -/
def writeRegFlag (x : RegIdx) (r : Byte) (f : Bool) (s : State) : Answer := .next (writeResultThenFlag x r f s).advance

/-- LD_BYTE (42_alu.md R141). -/
def execLdByte (x : RegIdx) (nn : Byte) (s : State) : Answer := writeReg x nn s

/-- ADD_BYTE (42_alu.md R142). -/
def execAddByte (x : RegIdx) (nn : Byte) (s : State) : Answer := writeReg x (s.reg x + nn) s

/-- LD_REG (42_alu.md R143). -/
def execLdReg (x y : RegIdx) (s : State) : Answer := writeReg x (s.reg y) s

/-- OR (42_alu.md R144). -/
def execOr (x y : RegIdx) (s : State) : Answer := writeReg x (s.reg x ||| s.reg y) s

/-- AND (42_alu.md R145). -/
def execAnd (x y : RegIdx) (s : State) : Answer := writeReg x (s.reg x &&& s.reg y) s

/-- XOR (42_alu.md R146). -/
def execXor (x y : RegIdx) (s : State) : Answer := writeReg x (s.reg x ^^^ s.reg y) s

/-- ADD_REG (42_alu.md R147). -/
def execAddReg (x y : RegIdx) (s : State) : Answer :=
  writeRegFlag x (s.reg x + s.reg y) (carryOut (s.reg x) (s.reg y)) s

/-- SUB (42_alu.md R148): VF is the borrow. -/
def execSub (x y : RegIdx) (s : State) : Answer :=
  writeRegFlag x (s.reg x - s.reg y) (borrowOut (s.reg x) (s.reg y)) s

/-- SHR (42_alu.md R149) under either value of `SHIFT_SOURCE`. -/
def execShrWith (src : ShiftSource) (x y : RegIdx) (s : State) : Answer :=
  writeRegFlag x (s.shiftOperand src x y >>> 1) (shiftedOutRight (s.shiftOperand src x y)) s

/-- SHR (42_alu.md R149). -/
def execShr (x y : RegIdx) (s : State) : Answer := execShrWith shiftSource x y s

/-- SUBN (42_alu.md R150): VF is the borrow of Vy - Vx. -/
def execSubn (x y : RegIdx) (s : State) : Answer :=
  writeRegFlag x (s.reg y - s.reg x) (borrowOut (s.reg y) (s.reg x)) s

/-- SHL (42_alu.md R151) under either value of `SHIFT_SOURCE`. -/
def execShlWith (src : ShiftSource) (x y : RegIdx) (s : State) : Answer :=
  writeRegFlag x (s.shiftOperand src x y <<< 1) (shiftedOutLeft (s.shiftOperand src x y)) s

/-- SHL (42_alu.md R151). -/
def execShl (x y : RegIdx) (s : State) : Answer := execShlWith shiftSource x y s

/-- RND (42_alu.md R152): one byte is taken whatever `nn` is. -/
def execRnd (x : RegIdx) (nn : Byte) (s : State) : Answer := writeReg x (s.randByte &&& nn) s.takeRand

end Sys2Proof.Machine
end

