-- ==== Sys2Proof/Machine/Control.lean ====
section
/-! DEFINITION. Control flow (41_control_flow.md): return, jump, call, skips on registers, computed jump. -/

namespace Sys2Proof.Machine

/-- RET (41_control_flow.md R121). -/
def execRet (s : State) : Answer :=
  match s.pop? with
  | some (target, t) => .next (t.setPc target)
  | none => .next (raiseFatal (.stackUnderflow s.pc (encode .ret)) s)

/-- JP (41_control_flow.md R122). -/
def execJp (nnn : Address) (s : State) : Answer := .next (s.setPc (zextAddr nnn))

/-- CALL (41_control_flow.md R123). -/
def execCall (nnn : Address) (s : State) : Answer :=
  match s.push? (s.pc + 2) with
  | some t => .next (t.setPc (zextAddr nnn))
  | none => .next (raiseFatal (.stackOverflow s.pc (encode (.call nnn))) s)

/-- SE_BYTE (41_control_flow.md R124). -/
def execSeByte (x : RegIdx) (nn : Byte) (s : State) : Answer := .next (s.skipIf (decide (s.reg x = nn)))

/-- SNE_BYTE (41_control_flow.md R125). -/
def execSneByte (x : RegIdx) (nn : Byte) (s : State) : Answer := .next (s.skipIf (decide (s.reg x ≠ nn)))

/-- SE_REG (41_control_flow.md R126). -/
def execSeReg (x y : RegIdx) (s : State) : Answer := .next (s.skipIf (decide (s.reg x = s.reg y)))

/-- SNE_REG (41_control_flow.md R127). -/
def execSneReg (x y : RegIdx) (s : State) : Answer := .next (s.skipIf (decide (s.reg x ≠ s.reg y)))

/-- JP_V0 (41_control_flow.md R128): no mask. -/
def execJpV0 (nnn : Address) (s : State) : Answer := .next (s.setPc (zextByte (s.reg 0#4) + zextAddr nnn))

end Sys2Proof.Machine
end

