-- ==== Sys2Proof/Machine/Display.lean ====
section
/-! DEFINITION. The framebuffer write controller (44_display.md). -/

namespace Sys2Proof.Machine

/-- CLS (44_display.md R180). -/
def execCls (s : State) : Answer := .next (s.redraw Gfx.blank).advance

/-- The bit of a sprite byte in column `c`: bit 7 is the leftmost (44_display.md R182). -/
def spriteBit (b : Byte) (c : Nat) : Bool := b.getLsbD (7 - c)

/-- The cells the set bits of sprite byte `b` hit, its left end at (x, y) (44_display.md R181, R183). -/
def rowCells (x y : Nat) (b : Byte) : List (Fin 2048) :=
  ((List.range 8).filter (spriteBit b)).map fun c => cellIndex (x + c) y

/-- The cells a sprite hits, byte r on row `y + r`, in the order of 44_display.md R181. -/
def spriteCells (x : Nat) : Nat → List Byte → List (Fin 2048)
  | _, [] => []
  | y, b :: bs => rowCells x y b ++ spriteCells x (y + 1) bs

/-- XOR one set sprite bit into cell `k`; the flag remembers whether a pixel went from on to off (44_display.md R181, R184). -/
def xorCell (acc : Gfx × Bool) (k : Fin 2048) : Gfx × Bool :=
  (acc.1.set k (acc.1.get k ^^^ 0x01#8), acc.2 || decide (acc.1.get k = 0x01#8))

/-- XOR a sprite's cells into the framebuffer; the result carries the collision (44_display.md R181). -/
def drawCells (g : Gfx) (cells : List (Fin 2048)) : Gfx × Bool := cells.foldl xorCell (g, false)

/-- The `n` sprite bytes from address `base` on (44_display.md R181). -/
def spriteBytes (p : DataOobPolicy) (m : Memory) (base n : Nat) : List Byte :=
  (dataAddrs base n).map fun a => m.read (dataAddr p a)

/-- What DRW draws in state `s`: the new framebuffer and the collision (44_display.md R181). -/
def drawn (p : DataOobPolicy) (x y : RegIdx) (n : Nibble) (s : State) : Gfx × Bool :=
  drawCells s.gfx (spriteCells (s.reg x).toNat (s.reg y).toNat (spriteBytes p s.mem s.i.toNat n.toNat))

/-- DRW (44_display.md R181) under either `DATA_OOB_POLICY`: the coordinates are read before VF is written. -/
def execDrwWith (p : DataOobPolicy) (x y : RegIdx) (n : Nibble) (s : State) : Answer :=
  withCheckedData p (dataAddrs s.i.toNat n.toNat) (.drw x y n) s
    (((s.redraw (drawn p x y n s).1).setReg vf (flagByte (drawn p x y n s).2)).advance)

/-- DRW (44_display.md R181). -/
def execDrw (x y : RegIdx) (n : Nibble) (s : State) : Answer := execDrwWith dataOobPolicy x y n s

end Sys2Proof.Machine
end

