-- ==== Sys2Proof/Machine/IndexMem.lean ====
section
/-! DEFINITION. Index register and memory transfer (43_index_memory.md). -/

namespace Sys2Proof.Machine

/-- LD_I (43_index_memory.md R160). -/
def execLdI (nnn : Address) (s : State) : Answer := .next (s.setI (zextAddr nnn)).advance

/-- ADD_I_VX (43_index_memory.md R161): mod 2^16, no flag. -/
def execAddIVx (x : RegIdx) (s : State) : Answer := .next (s.setI (s.i + zextByte (s.reg x))).advance

/-- LD_F_VX (43_index_memory.md R162): Vx is not masked. -/
def execLdFVx (x : RegIdx) (s : State) : Answer := .next (s.setI (zextByte (s.reg x) * 5#16)).advance

/-- The decimal digits of a byte, hundreds first (43_index_memory.md R163). -/
def bcdDigits (b : Byte) : List Byte :=
  [BitVec.ofNat 8 (b.toNat / 100), BitVec.ofNat 8 (b.toNat / 10 % 10), BitVec.ofNat 8 (b.toNat % 10)]

/-- LD_B_VX (43_index_memory.md R163) under either `DATA_OOB_POLICY`. -/
def execLdBVxWith (p : DataOobPolicy) (x : RegIdx) (s : State) : Answer :=
  withCheckedData p (dataAddrs s.i.toNat 3) (.ldBVx x) s
    (s.setMem (storeBytes p s.mem s.i.toNat (bcdDigits (s.reg x)))).advance

/-- LD_B_VX (43_index_memory.md R163). -/
def execLdBVx (x : RegIdx) (s : State) : Answer := execLdBVxWith dataOobPolicy x s

/-- LD_MEM_VX (43_index_memory.md R164) under either `DATA_OOB_POLICY`. -/
def execLdMemVxWith (p : DataOobPolicy) (x : RegIdx) (s : State) : Answer :=
  withCheckedData p (dataAddrs s.i.toNat (x.toNat + 1)) (.ldMemVx x) s
    (s.setMem (storeBytes p s.mem s.i.toNat (s.regsUpTo x))).advance

/-- LD_MEM_VX (43_index_memory.md R164). -/
def execLdMemVx (x : RegIdx) (s : State) : Answer := execLdMemVxWith dataOobPolicy x s

/-- LD_VX_MEM (43_index_memory.md R165) under either `DATA_OOB_POLICY`. -/
def execLdVxMemWith (p : DataOobPolicy) (x : RegIdx) (s : State) : Answer :=
  withCheckedData p (dataAddrs s.i.toNat (x.toNat + 1)) (.ldVxMem x) s (loadRegs p (x.toNat + 1) s).advance

/-- LD_VX_MEM (43_index_memory.md R165). -/
def execLdVxMem (x : RegIdx) (s : State) : Answer := execLdVxMemWith dataOobPolicy x s

end Sys2Proof.Machine
end

