-- ==== Sys2Proof/Machine/KeyTimer.lean ====
section
/-! DEFINITION. Key and timer instructions (45_timers_keys.md). -/

namespace Sys2Proof.Machine

/-- SKP (45_timers_keys.md R190). -/
def execSkp (x : RegIdx) (s : State) : Answer := .next (s.skipIf (s.keyDown (s.reg x)))

/-- SKNP (45_timers_keys.md R191). -/
def execSknp (x : RegIdx) (s : State) : Answer := .next (s.skipIf (!s.keyDown (s.reg x)))

/-- LD_VX_DT (45_timers_keys.md R193): DT before this step's tick. -/
def execLdVxDt (x : RegIdx) (s : State) : Answer := .next (s.setReg x s.dt).advance

/-- LD_VX_K (45_timers_keys.md R194): complete at once if a key is held, else wait with pc unchanged. -/
def execLdVxK (x : RegIdx) (s : State) : Answer :=
  match s.lowestKey with
  | some k => .next (s.setReg x (BitVec.ofNat 8 k.val)).advance
  | none => .next (s.setRunState (.awaitingKey x))

/-- LD_DT_VX (45_timers_keys.md R195). -/
def execLdDtVx (x : RegIdx) (s : State) : Answer := .next (s.setDt (s.reg x)).advance

/-- LD_ST_VX (45_timers_keys.md R196). -/
def execLdStVx (x : RegIdx) (s : State) : Answer := .next (s.setSt (s.reg x)).advance

end Sys2Proof.Machine
end

