-- ==== Sys2Proof/Machine/Cycle.lean ====
section
/-! DEFINITION. The instruction cycle engine (40_cycle_engine.md): fetch, dispatch, execute and tick, and the three kinds of step
that `step` (Sys2Proof/Machine/Step.lean) chooses among. -/

namespace Sys2Proof.Machine

/-! ### Events (40_cycle_engine.md R109) -/

/-- `events <- {}`: a step starts with no event (40_cycle_engine.md R100). -/
def beginStep (s : State) : State := { s with result := .ok Events.none }

/-- `report Beep`. -/
def StepResult.withBeep : StepResult → StepResult
  | .ok ev => .ok { ev with beep := true }
  | .err e => .err e

/-- `report UnsupportedOpcode(pc, op)`. -/
def StepResult.withUnsupported (r : UnsupportedReport) : StepResult → StepResult
  | .ok ev => .ok { ev with unsupported := some r }
  | .err e => .err e

/-! ### Tick (40_cycle_engine.md R108) -/

/-- One tick of a timer: decrement while above 0. -/
def tickTimer (b : Byte) : Byte := if 0 < b.toNat then b - 1 else b

/-- Tick: DT, then ST with the Beep when ST was exactly 1. -/
def tick (s : State) : State :=
  { s with
    dt := tickTimer s.dt
    st := tickTimer s.st
    result := if s.st = 0x01#8 then s.result.withBeep else s.result }

/-- The end of a step: a step that raised a fatal error does not tick (40_cycle_engine.md R100, 60_exceptions.md R216). -/
def endStep (s : State) : State :=
  match s.runState with
  | .halted _ => s
  | _ => tick s

/-! ### Fetch (40_cycle_engine.md R103) -/

/-- The fetch bound: `pc + 1 >= 4096`. -/
def fetchFaults (s : State) : Bool := decide (4096 ≤ s.pc.toNat + 1)

/-- The word at pc, big-endian (20_memory.md R54). -/
def fetchWord (s : State) : Word := wordOfBytes (s.mem.read s.pc.toNat) (s.mem.read (s.pc.toNat + 1))

/-! ### The three kinds of step (40_cycle_engine.md R100) -/

/-- Execute of an unsupported word (40_cycle_engine.md R106, 60_exceptions.md R214). -/
def execUnsupported (op : Word) (s : State) : State :=
  ({ s with result := s.result.withUnsupported ⟨s.pc, op⟩ }).advance

/-- End the step of an instruction that answered a next state. -/
def finish (a : Answer) : Answer :=
  match a with
  | .next t => .next (endStep t)
  | .fault r => .fault r
  | .refused r => .refused r

/-- A Running step (40_cycle_engine.md R100, R103 to R108). -/
def stepRunning (s : State) : Answer :=
  if fetchFaults s then .next (raiseFatal (.outOfBoundsFetch s.pc) s)
  else
    match decode (fetchWord s) with
    | .instr i => finish (exec i (beginStep s))
    | .unsupported op => .next (endStep (execUnsupported op (beginStep s)))

/-- `PollKey(x)` (40_cycle_engine.md R110). -/
def pollKey (x : RegIdx) (s : State) : State :=
  match s.lowestKey with
  | some k => takeKey x k s
  | none => s

/-- An AwaitingKey step (40_cycle_engine.md R100, R110). -/
def stepAwaiting (x : RegIdx) (s : State) : Answer := .next (tick (pollKey x (beginStep s)))

/-- A Halted step returns the error and changes nothing (40_cycle_engine.md R111). -/
def stepHalted (e : FatalError) (s : State) : Answer := .next { s with result := .err e }

/-! ### Placing an instruction where the next step fetches it -/

/-- Make the next step a fetch: run_state Running, and pc at the entry point 0x200 if it is beyond the fetch bound; otherwise
nothing changes (assumption 11). -/
def readyToFetch (s : State) : State :=
  { s with runState := .running, pc := if fetchFaults s then 0x0200#16 else s.pc }

/-- Store a word at pc, big-endian (20_memory.md R54). -/
def placeWord (op : Word) (s : State) : State :=
  s.setMem (((s.mem).write s.pc.toNat (bytesOfWord op).1).write (s.pc.toNat + 1) (bytesOfWord op).2)

end Sys2Proof.Machine
end

