-- ==== Sys2Proof/Machine/Step.lean ====
section
/-! DEFINITION. One step (40_cycle_engine.md R100), and the placing of an instruction where the next step fetches it. -/

namespace Sys2Proof.Machine

/-- `step()` (40_cycle_engine.md R100): its behaviour depends on run_state. -/
def step (s : State) : Host.Outcome State Fault Refusal :=
  match s.runState with
  | .halted e => stepHalted e s
  | .awaitingKey x => stepAwaiting x s
  | .running => stepRunning s

/-- `s` with the instruction of an opcode-table word stored where the next step fetches it; it stands for the part of `load`
that puts a program in memory (assumptions 10, 11). -/
def State.withFetchWord (s : State) (nbits w : Nat) : State := placeWord (tableWord nbits w) (readyToFetch s)

end Sys2Proof.Machine
end

