-- ==== Sys2Proof/Machine/Interface.lean ====
section
/-! DEFINITION. The host's operations, each atomic between two steps, and the core's outputs (10_state.md R39). -/

namespace Sys2Proof.Machine

/-! ### Program load (70_reset_and_hazards.md R243, 60_exceptions.md R218) -/

/-- What `load` returns: Ok with the loaded state, or the rejection with the byte count. -/
inductive LoadResult where
  | ok (s : State)
  | programTooLarge (count : Nat)
  deriving DecidableEq, Repr

/-- Store a program's bytes from address `a` on. -/
def loadBytes : Memory → Nat → List Byte → Memory
  | m, _, [] => m
  | m, a, b :: bs => loadBytes (m.write a b) (a + 1) bs

/-- `load(bytes)`: more than 3584 bytes are rejected whole. -/
def hostLoad (bytes : List Byte) (s : State) : LoadResult :=
  if wellFormedImage bytes then .ok (s.setMem (loadBytes s.mem 0x200 bytes)) else .programTooLarge bytes.length

/-! ### Creation and reset, for every FONT (70_reset_and_hazards.md R240 to R242) -/

/-- The memory of a created machine: zeroed above the font, and the font `table` copied to 0..80 (R241, R242). -/
def fontMemory (table : Font) : Memory := loadBytes [] 0 table.toList

/-- The created state of a machine with the font `table` (R242). With the default FONT it is `State.reset` (law `created_font`). -/
def created (table : Font) : State := State.reset.setMem (fontMemory table)

/-- `reset()` of a machine with the font `table` (R240): every state element to its reset value. The inputs are the host's and keep
their values; the returned value of the last step is cleared (assumption 25). -/
def hostResetWith (table : Font) (s : State) : State :=
  { created table with keys := s.keys, randSupply := s.randSupply, randDraws := s.randDraws }

/-- `reset()` with the default FONT. -/
def hostReset (s : State) : State := hostResetWith font s

/-! ### Draw-flag handshake, keys, random bytes -/

/-- `clear_draw_flag()` (60_exceptions.md R227). -/
def hostClearDrawFlag (s : State) : State := { s with drawFlag := false }

/-- `press(k)` (60_exceptions.md R226). -/
def hostPress (k : Fin 16) (s : State) : State := { s with keys := s.keys.set k.val true }

/-- `release(k)` (60_exceptions.md R226). -/
def hostRelease (k : Fin 16) (s : State) : State := { s with keys := s.keys.set k.val false }

/-- The host supplies random bytes, taken after those already supplied (60_exceptions.md R228). -/
def hostSupplyRand (bytes : List Byte) (s : State) : State := { s with randSupply := s.randSupply ++ bytes }

/-- The host operations that change the core's state or inputs. -/
inductive HostOp where
  | load (bytes : List Byte)
  | reset
  | clearDrawFlag
  | press (k : Fin 16)
  | release (k : Fin 16)
  | supplyRand (bytes : List Byte)
  deriving DecidableEq, Repr

/-- The state after a host operation on a machine with the font `table`; a rejected load leaves it as it was (60_exceptions.md
R218). -/
def applyHostOpWith (table : Font) (op : HostOp) (s : State) : State :=
  match op with
  | .load bytes =>
    match hostLoad bytes s with
    | .ok t => t
    | .programTooLarge _ => s
  | .reset => hostResetWith table s
  | .clearDrawFlag => hostClearDrawFlag s
  | .press k => hostPress k s
  | .release k => hostRelease k s
  | .supplyRand bytes => hostSupplyRand bytes s

/-- The state after a host operation, with the default FONT. -/
def applyHostOp (op : HostOp) (s : State) : State := applyHostOpWith font op s

/-! ### Outputs (10_state.md R39) and the remaining codes (60_exceptions.md R211) -/

/-- The `gfx` read port: pixel (x, y) (60_exceptions.md R227). -/
def outPixel (s : State) (x : Fin 64) (y : Fin 32) : Byte := s.gfx.get (cellIndex x.val y.val)

/-- The `draw_flag` level. -/
def outDrawFlag (s : State) : Bool := s.drawFlag

/-- The `awaiting_key` level (10_state.md R33). -/
def outAwaitingKey (s : State) : Bool :=
  match s.runState with
  | .awaitingKey _ => true
  | _ => false

/-- The `halted` level with its `error` (60_exceptions.md R217). -/
def outError (s : State) : Option FatalError :=
  match s.runState with
  | .halted e => some e
  | _ => none

/-- The `beep` event of the last step (60_exceptions.md R225). -/
def outBeep (s : State) : Bool :=
  match s.result with
  | .ok ev => ev.beep
  | .err _ => false

/-- The `unsupported` event of the last step (60_exceptions.md R214). -/
def outUnsupported (s : State) : Option UnsupportedReport :=
  match s.result with
  | .ok ev => ev.unsupported
  | .err _ => none

/-- The codes of the two errors that are no fatal error of a step (60_exceptions.md R211). -/
def programTooLargeCode : Nat := 5
def unsupportedOpcodeCode : Nat := 16

end Sys2Proof.Machine
end

