-- ==== Sys2Proof/Safety.lean ====
section
/-! DEFINITION. What a good state is, what a run is, and when a run has ended, in the terms the statements use. -/

namespace Sys2Proof.Machine

/-- The invariant of the machine: memory in canonical form (assumption 14); every pixel 0 or 1 (10_state.md R31); pc at most 0x10FE (R25); every
stack entry at most 0x1000, the address after the last word; a waiting core's pc on a fetchable word (40_cycle_engine.md R110);
Halted exactly when the last step returned its error (60_exceptions.md R217). -/
structure Inv (s : State) : Prop where
  memory_canonical : s.mem.wf = true
  pixels_binary : ∀ k : Fin 2048, s.gfx.get k = 0x00#8 ∨ s.gfx.get k = 0x01#8
  pc_bound : s.pc.toNat ≤ 0x10FE
  stack_bound : ∀ k : Fin 16, (s.stack[k.val]).toNat ≤ 0x1000
  waiting_pc : ∀ x, s.runState = .awaitingKey x → s.pc.toNat + 1 < 4096
  halted_result : ∀ e, s.runState = .halted e ↔ s.result = .err e

/-- The states of a run of a machine with the font `table` (70_reset_and_hazards.md R244): creation, then steps and host operations
in any order. -/
inductive Reachable (table : Font) : State → Prop
  | created : Reachable table (created table)
  | stepped {s t : State} : Reachable table s → step s = .next t → Reachable table t
  | hosted {s : State} (op : HostOp) : Reachable table s → Reachable table (applyHostOpWith table op s)

/-- A faulted end of a run (70_reset_and_hazards.md R250 (a)). -/
def FaultedEnd (s : State) : Prop := ∃ e, s.runState = .halted e

/-- A successful end of a run (70_reset_and_hazards.md R250 (b)): Running, and the word at pc is a jump to itself. -/
def SuccessfulEnd (s : State) : Prop :=
  s.runState = .running ∧ s.pc.toNat ≤ 0xFFE ∧ fetchWord s = 0x1000#16 ||| s.pc

/-- A run has ended (70_reset_and_hazards.md R250). -/
def RunEnded (s : State) : Prop := FaultedEnd s ∨ SuccessfulEnd s

/-! ### What an instruction leaves unchanged: the vocabulary of the frames -/

/-- Every general register outside `ds` holds what it held (10_state.md R21). -/
def RegsKept (ds : List RegIdx) (s t : State) : Prop := ∀ r, r ∉ ds → t.reg r = s.reg r

/-- Every byte of memory reads as before. -/
def MemoryKept (s t : State) : Prop := ∀ a, t.mem.read a = s.mem.read a

/-- Every byte of memory outside `first .. first + count` reads as before. -/
def MemoryKeptOutside (first count : Nat) (s t : State) : Prop :=
  ∀ a, (a < first ∨ first + count ≤ a) → t.mem.read a = s.mem.read a

/-- The index register holds what it held. -/
def IndexKept (s t : State) : Prop := t.i = s.i

/-- The call stack and its pointer hold what they held. -/
def StackKept (s t : State) : Prop := t.sp = s.sp ∧ t.stack = s.stack

/-- Both timers hold what they held. -/
def TimersKept (s t : State) : Prop := t.dt = s.dt ∧ t.st = s.st

/-- The framebuffer and the draw flag hold what they held. -/
def DisplayKept (s t : State) : Prop := t.gfx = s.gfx ∧ t.drawFlag = s.drawFlag

/-- The run sub-state and the step's returned value are what they were: no error was raised, no event reported. -/
def RunKept (s t : State) : Prop := t.runState = s.runState ∧ t.result = s.result

/-- The Key State is what it was. -/
def KeysKept (s t : State) : Prop := t.keys = s.keys

/-- No byte was taken from the random source. -/
def RandKept (s t : State) : Prop := t.randSupply = s.randSupply ∧ t.randDraws = s.randDraws

/-- Everything but the registers `ds` and pc is unchanged. -/
def OnlyRegsAndPc (ds : List RegIdx) (s t : State) : Prop :=
  RegsKept ds s t ∧ MemoryKept s t ∧ IndexKept s t ∧ StackKept s t ∧ TimersKept s t ∧ DisplayKept s t ∧
    RunKept s t ∧ KeysKept s t ∧ RandKept s t

/-- A fatal entry (60_exceptions.md R216): run_state and the returned value say `e`, everything else is unchanged. -/
def FatalEntry (e : FatalError) (s t : State) : Prop :=
  t.runState = .halted e ∧ t.result = .err e ∧ t.pc = s.pc ∧ RegsKept [] s t ∧ MemoryKept s t ∧ IndexKept s t ∧
    StackKept s t ∧ TimersKept s t ∧ DisplayKept s t ∧ KeysKept s t ∧ RandKept s t

/-! ### Kinds of steps and instructions -/

/-- The next step fetches and executes instruction `ins` (40_cycle_engine.md R100, R103, R104). -/
def Executes (s : State) (ins : Instr) : Prop :=
  s.runState = .running ∧ s.pc.toNat + 1 < 4096 ∧ decode (fetchWord s) = .instr ins

/-- The machine is halted (10_state.md R33). -/
def IsHalted (s : State) : Prop := ∃ e, s.runState = .halted e

/-- The instructions with an error check (60_exceptions.md R211). -/
def MayRaise : Instr → Prop
  | .ret | .call _ | .drw _ _ _ | .ldBVx _ | .ldMemVx _ | .ldVxMem _ => True
  | _ => False

/-- The registers an instruction names as destinations, or writes as a flag (10_state.md R21, R22). -/
def destRegs : Instr → List RegIdx
  | .ldByte x _ | .addByte x _ | .ldReg x _ | .or x _ | .and x _ | .xor x _ | .rnd x _ | .ldVxDt x | .ldVxK x => [x]
  | .addReg x _ | .sub x _ | .shr x _ | .subn x _ | .shl x _ => [x, vf]
  | .drw _ _ _ => [vf]
  | .ldVxMem x => (List.range (x.toNat + 1)).map (BitVec.ofNat 4)
  | _ => []

/-- Two states agree on all an instruction other than DRW reads: not on the framebuffer, the draw flag, ST, the last step's
returned value and the stack entries not in use (10_state.md R28, R30, R31, R38). -/
def AgreeOnRead (s t : State) : Prop :=
  MemoryKept s t ∧ RegsKept [] s t ∧ t.i = s.i ∧ t.pc = s.pc ∧ t.sp = s.sp ∧
    (∀ k : Fin 16, k.val < s.sp.val → t.stack[k.val] = s.stack[k.val]) ∧
    t.dt = s.dt ∧ t.runState = s.runState ∧ KeysKept s t ∧ RandKept s t

/-- Sprite byte `b` drawn with its left end in column `x` has a set bit over column `px` (44_display.md R181 to R183). -/
def RowCovers (b : Byte) (x px : Nat) : Prop := ∃ c < 8, b.getLsbD (7 - c) = true ∧ px = (x + c) % 64

/-- The sprite of the `n` bytes at `place` of I, I + 1, …, drawn at (Vx, Vy), has a set bit over pixel (px, py) (44_display.md
R181 to R183). -/
def SpriteCoversVia (place : Nat → Nat) (s : State) (x y : RegIdx) (n : Nibble) (px py : Nat) : Prop :=
  ∃ r < n.toNat, py = ((s.reg y).toNat + r) % 32 ∧ RowCovers (s.mem.read (place (s.i.toNat + r))) (s.reg x).toNat px

/-- The sprite at addresses I, I + 1, … as they are. -/
def SpriteCovers (s : State) (x y : RegIdx) (n : Nibble) (px py : Nat) : Prop := SpriteCoversVia (fun a => a) s x y n px py

/-- The sprite under CLAMP: an address beyond 0xFFF is 0xFFF (20_memory.md R56). -/
def SpriteCoversClamped (s : State) (x y : RegIdx) (n : Nibble) (px py : Nat) : Prop :=
  SpriteCoversVia (fun a => min a 0xFFF) s x y n px py

end Sys2Proof.Machine
end

