-- ==== Sys2Proof/Certificates/Slice0/Obligations.lean ====
section
/-! DEFINITION. The statements for the provers. Each docstring names the passage of the spec it formalises. Where that passage
is marked as a decision or derivation of the spec itself, the docstring says so, and OBLIGATIONS.json calls the statement derived. -/

open Sys2Proof Sys2Proof.Machine

/-! ### Encoding -/

/-- Words written out from the examples of the spec's rules decode to the instructions they stand for. -/
def Obligations.DecodesWordsOfTheSpec : Prop :=
  decode 0x00E0#16 = .instr .cls ∧ decode 0x00EE#16 = .instr .ret ∧
  decode 0x1234#16 = .instr (.jp 0x234#12) ∧ decode 0x2300#16 = .instr (.call 0x300#12) ∧
  decode 0x3342#16 = .instr (.seByte 0x3#4 0x42#8) ∧ decode 0x5120#16 = .instr (.seReg 0x1#4 0x2#4) ∧
  decode 0x8306#16 = .instr (.shr 0x3#4 0x0#4) ∧ decode 0x8017#16 = .instr (.subn 0x0#4 0x1#4) ∧
  decode 0xC30F#16 = .instr (.rnd 0x3#4 0x0F#8) ∧ decode 0xD015#16 = .instr (.drw 0x0#4 0x1#4 0x5#4) ∧
  decode 0xE49E#16 = .instr (.skp 0x4#4) ∧ decode 0xF733#16 = .instr (.ldBVx 0x7#4) ∧
  decode 0x5121#16 = .unsupported 0x5121#16 ∧ decode 0x0123#16 = .unsupported 0x0123#16

/-- Decoding the word of an instruction gives the instruction back, with every operand at every value its field admits
(30_encoding.md sections 1 to 3). Every `Instr` is well formed by its type. -/
def Obligations.DecodeEncodeRoundTrip : Prop :=
  ∀ i : Instr, decode (encode i) = .instr i ∧ wellFormedWord (encode i) = true

/-- The word an error records for an instruction (`encode`, assumption 12) is the word that was fetched: a word that decodes to
an instruction is that instruction's own word, and no other word decodes to it. -/
def Obligations.EncodeGivesBackTheFetchedWord : Prop :=
  ∀ (w : Word) (i : Instr), decode w = .instr i → encode i = w

/-- The two-level decoder is the table of 30_encoding.md section 3: it answers the instruction of the row a word selects, and
rejects a word exactly when no row selects it. So no word selects two rows. -/
def Obligations.DecoderAgreesWithOpcodeTable : Prop :=
  (∀ (w : Word) (i : Instr), decode w = .instr i → i.row ∈ opcodeTable ∧ i.row.selects w = true) ∧
  (∀ (w : Word), ∀ r ∈ opcodeTable, r.selects w = true → ∃ i, decode w = .instr i ∧ i.row = r) ∧
  (∀ (w op : Word), decode w = .unsupported op → op = w ∧ ∀ r ∈ opcodeTable, r.selects w = false)

/-- The unsupported words, family by family, as 30_encoding.md section 4 lists them. -/
def Obligations.UnsupportedWordsByFamily : Prop :=
  ∀ w : Word, decode w = .unsupported w ↔
    (w.toNat / 4096 = 0x0 ∧ w ≠ 0x00E0#16 ∧ w ≠ 0x00EE#16) ∨
    (w.toNat / 4096 = 0x5 ∧ w.toNat % 16 ≠ 0) ∨
    (w.toNat / 4096 = 0x8 ∧ w.toNat % 16 ∈ [0x8, 0x9, 0xA, 0xB, 0xC, 0xD, 0xF]) ∨
    (w.toNat / 4096 = 0x9 ∧ w.toNat % 16 ≠ 0) ∨
    (w.toNat / 4096 = 0xE ∧ w.toNat % 256 ∉ [0x9E, 0xA1]) ∨
    (w.toNat / 4096 = 0xF ∧ w.toNat % 256 ∉ [0x07, 0x0A, 0x15, 0x18, 0x1E, 0x29, 0x33, 0x55, 0x65])

/-! ### The step -/

/-- A Running step whose pc is within the fetch bound and whose word, the byte at pc in bits 15..8 and the byte at pc + 1 in
bits 7..0, decodes to an instruction is `exec` of it, from the state with no event yet, and then the tick unless it raised a
fatal error (40_cycle_engine.md sections 1 to 5). -/
def Obligations.StepRunsDecodedInstruction : Prop :=
  ∀ (s t : State) (i : Instr), s.runState = .running → s.pc.toNat + 1 < 4096 →
    decode (s.mem.read s.pc.toNat ++ s.mem.read (s.pc.toNat + 1)) = .instr i →
    exec i { s with result := .ok ⟨false, none⟩ } = .next t →
    (IsHalted t → step s = .next t) ∧ (¬ IsHalted t → step s = .next (tick t))

/-- `withFetchWord` is the model's own device for placing an instruction (its choice, assumption 11), not an operation of the spec: from
any state with canonical memory, halted, waiting or beyond the fetch bound, once a word of the table is placed the next step runs its
instruction. -/
def Obligations.PlacedWordRunsNext : Prop :=
  ∀ (s : State) (w : Nat) (i : Instr), s.mem.wf = true → decodeTableWord 16 w = some i → Executes (s.withFetchWord 16 w) i

/-- 40_cycle_engine.md R106: an unsupported word reports itself with its pc, advances pc by 2, changes nothing else, and its
step goes on to the tick. -/
def Obligations.UnsupportedWordIsNoOpStep : Prop :=
  ∀ (s : State) (op : Word), s.runState = .running → s.pc.toNat + 1 < 4096 → decode (fetchWord s) = .unsupported op →
    op = fetchWord s ∧
    step s = .next (tick { s with pc := s.pc + 2, result := .ok ⟨false, some ⟨s.pc, fetchWord s⟩⟩ })

/-- The fetch bound (40_cycle_engine.md section 2; the effect of the error is the spec's decision D18): a Running step at
pc >= 0xFFF raises OutOfBoundsFetch(pc) and changes nothing else, and no other step raises it. -/
def Obligations.FetchBeyondMemoryHalts : Prop :=
  (∀ s : State, s.runState = .running → 0xFFF ≤ s.pc.toNat →
    ∃ t, step s = .next t ∧ FatalEntry (.outOfBoundsFetch s.pc) s t) ∧
  (∀ (s t : State) (pc : Word), (∀ e, s.runState ≠ .halted e) → step s = .next t →
    t.runState = .halted (.outOfBoundsFetch pc) → s.runState = .running ∧ 0xFFF ≤ s.pc.toNat ∧ pc = s.pc)

/-- A step in Halted(e) returns Err(e), changes nothing and does not tick (the spec's decision D18). -/
def Obligations.HaltedStepChangesNothing : Prop :=
  ∀ (s : State) (e : FatalError), s.runState = .halted e →
    step s = .next { s with result := .err e } ∧ (Inv s → step s = .next s)

/-- An AwaitingKey(x) step fetches nothing and ticks. With a key held it gives Vx the lowest held key, advances pc and goes back
to Running; with none held it goes on waiting with pc on the Fx0A (the spec's decisions D15 and D16). -/
def Obligations.KeyWaitPollsKeysAndTicks : Prop :=
  ∀ (s : State) (x : RegIdx), s.runState = .awaitingKey x →
    ∃ t, step s = .next t ∧
      (∀ k : Fin 16, s.keys[k.val] = true → (∀ j : Fin 16, j.val < k.val → s.keys[j.val] = false) →
        t.runState = .running ∧ (t.reg x).toNat = k.val ∧ t.pc = s.pc + 2 ∧ RegsKept [x] s t) ∧
      ((∀ k : Fin 16, s.keys[k.val] = false) → t.runState = .awaitingKey x ∧ t.pc = s.pc ∧ RegsKept [] s t) ∧
      MemoryKept s t ∧ IndexKept s t ∧ StackKept s t ∧ DisplayKept s t ∧ KeysKept s t ∧ RandKept s t ∧
      t.dt.toNat = s.dt.toNat - 1 ∧ t.st.toNat = s.st.toNat - 1 ∧ t.result = .ok ⟨decide (s.st.toNat = 1), none⟩

/-- Every step that does not end halted ticks: DT falls by one, not below 0, unless the step executes Fx15; ST likewise unless it
executes Fx18; and then the step beeps exactly when ST went from 1 to 0 (40_cycle_engine.md section 5, with the spec's decisions
D16 and D28). -/
def Obligations.EveryNonFatalStepTicks : Prop :=
  ∀ (s t : State), step s = .next t → ¬ IsHalted t →
    ((¬ ∃ x, Executes s (.ldDtVx x)) → t.dt.toNat = s.dt.toNat - 1) ∧
    ((¬ ∃ x, Executes s (.ldStVx x)) → t.st.toNat = s.st.toNat - 1 ∧ (outBeep t = true ↔ s.st.toNat = 1))

/-- DT counts steps (70_reset_and_hazards.md section 4, marked derived there): along any run of `j` steps none of which ends
halted or executes Fx15, DT falls by `j`, not below 0. -/
def Obligations.DelayTimerCountsSteps : Prop :=
  ∀ (f : Nat → State) (j : Nat),
    (∀ k < j, step (f k) = .next (f (k + 1)) ∧ ¬ IsHalted (f (k + 1)) ∧ ¬ ∃ x, Executes (f k) (.ldDtVx x)) →
    (f j).dt.toNat = (f 0).dt.toNat - j

/-! ### Rules about the whole machine -/

/-- No step faults or is refused: every state has a next state, and so has every instruction in every state (30_encoding.md
section 4, 40_cycle_engine.md section 1; that a fatal error is a next state is the model's choice, assumption 8). -/
def Obligations.EveryStepHasNextState : Prop :=
  (∀ s : State, ∃ t, step s = .next t) ∧ (∀ (i : Instr) (s : State), ∃ t, exec i s = .next t)

/-- The created state meets the invariant. The ranges of pc, stack and pixels hold by the reset values of 10_state.md section 9 (the
spec's decisions D23 and D33); that memory is in canonical form is about the model's own list form (assumption 14), and that the
returned value names no error is the model's choice (assumption 7). -/
def Obligations.CreatedStateMeetsInvariant : Prop := Inv State.reset

/-- Every step keeps the invariant. Derived in the spec: pixels 0 or 1 and pc at most 0x10FE (10_state.md sections 3 and 5), a waiting core
on a fetchable word (40_cycle_engine.md section 6), Halted exactly when the step returned that error (60_exceptions.md section 2, the
spec's decision D18; the field `result` is assumption 7). Stack entries at most 0x1000 follow from what 2nnn pushes
(41_control_flow.md section 2, the spec's decision D3). Canonical memory is about the model's own list form (assumption 14). -/
def Obligations.StepKeepsInvariant : Prop :=
  ∀ (s t : State), Inv s → step s = .next t → Inv t

/-- Whatever FONT is, every host operation keeps the invariant, and so every state that creation, steps and host operations reach, in any
order, meets it (70_reset_and_hazards.md sections 1 to 3). By the model's own choices: operations take effect between steps
(assumption 9), creation and reset return no error (assumptions 7 and 25), and memory has a canonical list form (assumption 14). -/
def Obligations.ReachableStatesMeetInvariant : Prop :=
  (∀ (table : Font) (op : HostOp) (s : State), Inv s → Inv (applyHostOpWith table op s)) ∧
  (∀ (table : Font) (s : State), Reachable table s → Inv s)

/-- Fatal errors are precise (the spec's decision D18): a step that halts has changed run_state and its returned value and
nothing else, and it did not tick. -/
def Obligations.FatalErrorsArePrecise : Prop :=
  ∀ (s t : State) (e : FatalError), ¬ IsHalted s → step s = .next t → t.runState = .halted e → FatalEntry e s t

/-- Only 00EE, 2nnn, Dxyn, Fx33, Fx55 and Fx65 can raise an error (60_exceptions.md section 1). -/
def Obligations.OnlySixInstructionsRaise : Prop :=
  ∀ (i : Instr) (s t : State), ¬ IsHalted s → exec i s = .next t → IsHalted t → MayRaise i

/-- Which instructions change what: only 00E0 and Dxyn the framebuffer and the draw flag, which neither clears; only 2nnn and 00EE
the stack and sp; only Fx33 and Fx55 memory; only Annn, Fx1E and Fx29 I; only Fx15 DT and only Fx18 ST, the tick apart (10_state.md
sections 3 to 5 and 8, 20_memory.md section 2; the draw flag by the spec's decisions D13 and D29). -/
def Obligations.EachStateElementHasItsWriters : Prop :=
  ∀ (i : Instr) (s t : State), exec i s = .next t →
    (¬ DisplayKept s t → i = .cls ∨ ∃ x y n, i = .drw x y n) ∧ (s.drawFlag = true → t.drawFlag = true) ∧
    (¬ StackKept s t → i = .ret ∨ ∃ nnn, i = .call nnn) ∧
    (¬ MemoryKept s t → (∃ x, i = .ldBVx x) ∨ ∃ x, i = .ldMemVx x) ∧
    (¬ IndexKept s t → (∃ nnn, i = .ldI nnn) ∨ (∃ x, i = .addIVx x) ∨ ∃ x, i = .ldFVx x) ∧
    (t.dt ≠ s.dt → ∃ x, i = .ldDtVx x) ∧ (t.st ≠ s.st → ∃ x, i = .ldStVx x)

/-- Every register outside an instruction's destinations and flag keeps its value; in particular 7xnn, 8xy0 to 8xy3 and Fx1E
leave VF alone (10_state.md section 2, with the spec's decisions D9 and D10). -/
def Obligations.OnlyDestinationsAndFlagChange : Prop :=
  ∀ (i : Instr) (s t : State), exec i s = .next t → RegsKept (destRegs i) s t

/-- No instruction changes the Key State; Cxnn takes exactly one random byte and every other instruction none (40_cycle_engine.md
section 4, derived there; the draw by the spec's decision D26 and assumption 5). -/
def Obligations.InputsUsedAsSpecified : Prop :=
  ∀ (i : Instr) (s t : State), exec i s = .next t →
    KeysKept s t ∧ ((∃ x nn, i = .rnd x nn) → t.randDraws = s.randDraws + 1 ∧ t.randSupply = s.randSupply.tail) ∧
    ((¬ ∃ x nn, i = .rnd x nn) → RandKept s t)

/-- How pc advances when no error is raised (10_state.md section 3): jumps, calls and returns apart, by 2, by 2 or 4 for the six
skips, and not at all for an Fx0A that starts to wait. -/
def Obligations.PcAdvancesByTwoOrFour : Prop :=
  ∀ (i : Instr) (s t : State), exec i s = .next t → ¬ IsHalted t →
    match i with
    | .jp _ | .call _ | .ret | .jpV0 _ => True
    | .seByte _ _ | .sneByte _ _ | .seReg _ _ | .sneReg _ _ | .skp _ | .sknp _ => t.pc = s.pc + 2 ∨ t.pc = s.pc + 4
    | .ldVxK x => t.pc = s.pc + 2 ∨ (t.pc = s.pc ∧ t.runState = .awaitingKey x)
    | _ => t.pc = s.pc + 2

/-- What no instruction reads cannot influence it: from two states that agree on all but the framebuffer, the draw flag, ST, the
last returned value and the stack entries not in use, an instruction leads to two states that agree in the same sense, unless it
is Dxyn, which also reads the framebuffer (10_state.md sections 3 to 5 and 10). -/
def Obligations.UnreadStateHasNoInfluence : Prop :=
  ∀ (i : Instr) (s s' t t' : State), s.mem.wf = true → s'.mem.wf = true → AgreeOnRead s s' →
    ((∃ x y n, i = .drw x y n) → s'.gfx = s.gfx) →
    exec i s = .next t → exec i s' = .next t' → AgreeOnRead t t'

/-- A self-jump ends a run (the definition of 70_reset_and_hazards.md section 6, the spec's decision D31): every later step leaves
the run ended and changes only DT, ST and its returned value. -/
def Obligations.SelfJumpChangesOnlyTimers : Prop :=
  ∀ s : State, SuccessfulEnd s →
    ∃ t, step s = .next t ∧ SuccessfulEnd t ∧ t = { s with dt := t.dt, st := t.st, result := t.result }

/-- About the model's own list form of memory (assumption 14), which the spec does not give: two canonical memories that read alike at
every address are the same list. -/
def Obligations.CanonicalMemoriesAreEqualData : Prop :=
  ∀ m m' : Memory, m.wf = true → m'.wf = true → (∀ a, m.read a = m'.read a) → m = m'

/-! ### Control flow -/

/-- 41_control_flow.md R122. -/
def Obligations.JumpGoesToAddress : Prop :=
  ∀ (s : State) (nnn : Address), (encode (.jp nnn)).toNat = (0x1000 ||| nnn.toNat) ∧
    ∃ t, exec (.jp nnn) s = .next t ∧ t.pc.toNat = nnn.toNat ∧ OnlyRegsAndPc [] s t

/-- Bnnn jumps to V0 + nnn, not wrapped to 12 bits (41_control_flow.md section 4, the spec's decision D2). -/
def Obligations.ComputedJumpAddsV0 : Prop :=
  ∀ (s : State) (nnn : Address), (encode (.jpV0 nnn)).toNat = (0xB000 ||| nnn.toNat) ∧
    ∃ t, exec (.jpV0 nnn) s = .next t ∧ t.pc.toNat = (s.reg 0x0#4).toNat + nnn.toNat ∧ OnlyRegsAndPc [] s t

/-- 2nnn pushes the address after the call (the spec's decision D3) and jumps; at sp = 16 it raises StackOverflow instead, with
the fatal entry of the spec's decision D18. -/
def Obligations.CallPushesReturnAddress : Prop :=
  ∀ (s : State) (nnn : Address), (encode (.call nnn)).toNat = (0x2000 ||| nnn.toNat) ∧
    (s.sp.val < 16 → ∃ t, exec (.call nnn) s = .next t ∧ t.pc.toNat = nnn.toNat ∧ t.sp.val = s.sp.val + 1 ∧
      (∀ k : Fin 16, t.stack[k.val] = if k.val = s.sp.val then s.pc + 2 else s.stack[k.val]) ∧
      RegsKept [] s t ∧ MemoryKept s t ∧ IndexKept s t ∧ TimersKept s t ∧ DisplayKept s t ∧ RunKept s t ∧
      KeysKept s t ∧ RandKept s t) ∧
    (s.sp.val = 16 → ∃ t, exec (.call nnn) s = .next t ∧
      FatalEntry (.stackOverflow s.pc (0x2000#16 ||| nnn.setWidth 16)) s t)

/-- 00EE pops the most recent return address into pc and leaves the popped entry as it is (the spec's decision D4); at sp = 0 it
raises StackUnderflow instead, with the fatal entry of the spec's decision D18. -/
def Obligations.ReturnPopsAddress : Prop :=
  ∀ s : State, encode .ret = 0x00EE#16 ∧
    (∀ k : Fin 16, s.sp.val = k.val + 1 → ∃ t, exec .ret s = .next t ∧ t.pc = s.stack[k.val] ∧ t.sp.val = k.val ∧
      t.stack = s.stack ∧ RegsKept [] s t ∧ MemoryKept s t ∧ IndexKept s t ∧ TimersKept s t ∧ DisplayKept s t ∧ RunKept s t ∧
      KeysKept s t ∧ RandKept s t) ∧
    (s.sp.val = 0 → ∃ t, exec .ret s = .next t ∧ FatalEntry (.stackUnderflow s.pc 0x00EE#16) s t)

/-- Call and return round trip (41_control_flow.md section 5, derived there): after a 2nnn at address p with sp = n < 16, an 00EE
executed in any later state with sp = n + 1 and entry n not changed sets pc = p + 2 and sp = n. -/
def Obligations.CallReturnRoundTrip : Prop :=
  ∀ (s t u : State) (nnn : Address) (k : Fin 16), s.sp.val = k.val → exec (.call nnn) s = .next t →
    u.sp = t.sp → u.stack[k.val] = t.stack[k.val] →
    ∃ w, exec .ret u = .next w ∧ w.pc = s.pc + 2 ∧ w.sp = s.sp

/-- 41_control_flow.md R124 and R125: the skips on a byte. -/
def Obligations.ByteSkips : Prop :=
  ∀ (s : State) (x : RegIdx) (nn : Byte),
    (encode (.seByte x nn)).toNat = (0x3000 ||| x.toNat <<< 8 ||| nn.toNat) ∧
    (encode (.sneByte x nn)).toNat = (0x4000 ||| x.toNat <<< 8 ||| nn.toNat) ∧
    (∃ t, exec (.seByte x nn) s = .next t ∧ OnlyRegsAndPc [] s t ∧
      (s.reg x = nn → t.pc = s.pc + 4) ∧ (s.reg x ≠ nn → t.pc = s.pc + 2)) ∧
    (∃ t, exec (.sneByte x nn) s = .next t ∧ OnlyRegsAndPc [] s t ∧
      (s.reg x ≠ nn → t.pc = s.pc + 4) ∧ (s.reg x = nn → t.pc = s.pc + 2))

/-- The skips on two registers (41_control_flow.md section 3; that the low nibble must be 0 is the spec's decision D20). -/
def Obligations.RegisterSkips : Prop :=
  ∀ (s : State) (x y : RegIdx),
    (encode (.seReg x y)).toNat = (0x5000 ||| x.toNat <<< 8 ||| y.toNat <<< 4) ∧
    (encode (.sneReg x y)).toNat = (0x9000 ||| x.toNat <<< 8 ||| y.toNat <<< 4) ∧
    (∃ t, exec (.seReg x y) s = .next t ∧ OnlyRegsAndPc [] s t ∧
      (s.reg x = s.reg y → t.pc = s.pc + 4) ∧ (s.reg x ≠ s.reg y → t.pc = s.pc + 2)) ∧
    (∃ t, exec (.sneReg x y) s = .next t ∧ OnlyRegsAndPc [] s t ∧
      (s.reg x ≠ s.reg y → t.pc = s.pc + 4) ∧ (s.reg x = s.reg y → t.pc = s.pc + 2))

/-! ### ALU -/

/-- 42_alu.md R141 and R142: load and add immediate; no flag, VF included unless it is Vx. -/
def Obligations.LoadAndAddImmediate : Prop :=
  ∀ (s : State) (x : RegIdx) (nn : Byte),
    (encode (.ldByte x nn)).toNat = (0x6000 ||| x.toNat <<< 8 ||| nn.toNat) ∧
    (encode (.addByte x nn)).toNat = (0x7000 ||| x.toNat <<< 8 ||| nn.toNat) ∧
    (∃ t, exec (.ldByte x nn) s = .next t ∧ t.reg x = nn ∧ t.pc = s.pc + 2 ∧ OnlyRegsAndPc [x] s t) ∧
    (∃ t, exec (.addByte x nn) s = .next t ∧ (t.reg x).toNat = ((s.reg x).toNat + nn.toNat) % 256 ∧
      t.pc = s.pc + 2 ∧ OnlyRegsAndPc [x] s t)

/-- 8xy0 to 8xy3: assign, OR, AND, XOR, bit by bit, with VF untouched unless it is Vx (42_alu.md section 3, the spec's decision
D9). -/
def Obligations.AssignAndLogic : Prop :=
  ∀ (s : State) (x y : RegIdx),
    (encode (.ldReg x y)).toNat = (0x8000 ||| x.toNat <<< 8 ||| y.toNat <<< 4) ∧
    (encode (.or x y)).toNat = (0x8001 ||| x.toNat <<< 8 ||| y.toNat <<< 4) ∧
    (encode (.and x y)).toNat = (0x8002 ||| x.toNat <<< 8 ||| y.toNat <<< 4) ∧
    (encode (.xor x y)).toNat = (0x8003 ||| x.toNat <<< 8 ||| y.toNat <<< 4) ∧
    (∃ t, exec (.ldReg x y) s = .next t ∧ t.reg x = s.reg y ∧ t.pc = s.pc + 2 ∧ OnlyRegsAndPc [x] s t) ∧
    (∃ t, exec (.or x y) s = .next t ∧ t.pc = s.pc + 2 ∧ OnlyRegsAndPc [x] s t ∧
      ∀ k, (t.reg x).getLsbD k = ((s.reg x).getLsbD k || (s.reg y).getLsbD k)) ∧
    (∃ t, exec (.and x y) s = .next t ∧ t.pc = s.pc + 2 ∧ OnlyRegsAndPc [x] s t ∧
      ∀ k, (t.reg x).getLsbD k = ((s.reg x).getLsbD k && (s.reg y).getLsbD k)) ∧
    (∃ t, exec (.xor x y) s = .next t ∧ t.pc = s.pc + 2 ∧ OnlyRegsAndPc [x] s t ∧
      ∀ k, (t.reg x).getLsbD k = ((s.reg x).getLsbD k ^^ (s.reg y).getLsbD k))

/-- 8xy4: the sum mod 256 in Vx and the carry in VF, which wins when x = 15 (42_alu.md section 3, the spec's decision D7). -/
def Obligations.AddWithCarry : Prop :=
  ∀ (s : State) (x y : RegIdx), (encode (.addReg x y)).toNat = (0x8004 ||| x.toNat <<< 8 ||| y.toNat <<< 4) ∧
    ∃ t, exec (.addReg x y) s = .next t ∧ t.pc = s.pc + 2 ∧ OnlyRegsAndPc [x, 0xF#4] s t ∧
      (x ≠ 0xF#4 → (t.reg x).toNat = ((s.reg x).toNat + (s.reg y).toNat) % 256) ∧
      (t.reg 0xF#4).toNat = ((s.reg x).toNat + (s.reg y).toNat) / 256

/-- 8xy5 and 8xy7: the difference mod 256 in Vx and the BORROW in VF: 1 exactly when the minuend is smaller, so 0 on equal
operands (42_alu.md section 3, the spec's decisions D5, D7 and D8). -/
def Obligations.SubtractWithBorrow : Prop :=
  ∀ (s : State) (x y : RegIdx),
    (encode (.sub x y)).toNat = (0x8005 ||| x.toNat <<< 8 ||| y.toNat <<< 4) ∧
    (encode (.subn x y)).toNat = (0x8007 ||| x.toNat <<< 8 ||| y.toNat <<< 4) ∧
    (∃ t, exec (.sub x y) s = .next t ∧ t.pc = s.pc + 2 ∧ OnlyRegsAndPc [x, 0xF#4] s t ∧
      (x ≠ 0xF#4 → ((t.reg x).toNat : Int) = (((s.reg x).toNat : Int) - (s.reg y).toNat) % 256) ∧
      (t.reg 0xF#4).toNat = if (s.reg x).toNat < (s.reg y).toNat then 1 else 0) ∧
    (∃ t, exec (.subn x y) s = .next t ∧ t.pc = s.pc + 2 ∧ OnlyRegsAndPc [x, 0xF#4] s t ∧
      (x ≠ 0xF#4 → ((t.reg x).toNat : Int) = (((s.reg y).toNat : Int) - (s.reg x).toNat) % 256) ∧
      (t.reg 0xF#4).toNat = if (s.reg y).toNat < (s.reg x).toNat then 1 else 0)

/-- 8xy6 and 8xyE shift Vx by one, the bit shifted out going to VF, and ignore Vy (42_alu.md section 3, the spec's decisions D5, D6
and D7: SHIFT_SOURCE = VX, assumption 2). -/
def Obligations.ShiftsOfVx : Prop :=
  ∀ (s : State) (x y : RegIdx),
    (encode (.shr x y)).toNat = (0x8006 ||| x.toNat <<< 8 ||| y.toNat <<< 4) ∧
    (encode (.shl x y)).toNat = (0x800E ||| x.toNat <<< 8 ||| y.toNat <<< 4) ∧
    (∃ t, exec (.shr x y) s = .next t ∧ t.pc = s.pc + 2 ∧ OnlyRegsAndPc [x, 0xF#4] s t ∧
      (x ≠ 0xF#4 → (t.reg x).toNat = (s.reg x).toNat / 2) ∧ (t.reg 0xF#4).toNat = (s.reg x).toNat % 2) ∧
    (∃ t, exec (.shl x y) s = .next t ∧ t.pc = s.pc + 2 ∧ OnlyRegsAndPc [x, 0xF#4] s t ∧
      (x ≠ 0xF#4 → (t.reg x).toNat = (s.reg x).toNat * 2 % 256) ∧ (t.reg 0xF#4).toNat = (s.reg x).toNat / 128)

/-- The other value of SHIFT_SOURCE, VY (the spec's parameter, D6): the shifts read Vy and still write Vx; and with x = y the
parameter makes no difference. -/
def Obligations.ShiftsOfVy : Prop :=
  ∀ (s : State) (x y : RegIdx),
    (∃ t, execShrWith .vy x y s = .next t ∧ t.pc = s.pc + 2 ∧ OnlyRegsAndPc [x, 0xF#4] s t ∧
      (x ≠ 0xF#4 → (t.reg x).toNat = (s.reg y).toNat / 2) ∧ (t.reg 0xF#4).toNat = (s.reg y).toNat % 2) ∧
    (∃ t, execShlWith .vy x y s = .next t ∧ t.pc = s.pc + 2 ∧ OnlyRegsAndPc [x, 0xF#4] s t ∧
      (x ≠ 0xF#4 → (t.reg x).toNat = (s.reg y).toNat * 2 % 256) ∧ (t.reg 0xF#4).toNat = (s.reg y).toNat / 128) ∧
    exec (.shr x x) s = execShrWith .vy x x s ∧ exec (.shl x x) s = execShlWith .vy x x s

/-- Cxnn takes one random byte r, the oldest the host supplied or else a free one (assumption 5), and writes r AND nn; the bits
outside nn are 0 whatever the byte (42_alu.md section 4, the spec's decision D26). -/
def Obligations.RandomByteIsMasked : Prop :=
  ∀ (s : State) (x : RegIdx) (nn : Byte), (encode (.rnd x nn)).toNat = (0xC000 ||| x.toNat <<< 8 ||| nn.toNat) ∧
    ∃ t, exec (.rnd x nn) s = .next t ∧ t.pc = s.pc + 2 ∧ RegsKept [x] s t ∧ MemoryKept s t ∧ IndexKept s t ∧ StackKept s t ∧
      TimersKept s t ∧ DisplayKept s t ∧ RunKept s t ∧ KeysKept s t ∧
      t.randDraws = s.randDraws + 1 ∧ t.randSupply = s.randSupply.tail ∧
      (∀ r rest, s.randSupply = r :: rest → t.reg x = r &&& nn) ∧
      (∀ k, nn.getLsbD k = false → (t.reg x).getLsbD k = false)

/-! ### Index register and memory -/

/-- 43_index_memory.md R160 and R162: Annn and Fx29. -/
def Obligations.IndexLoads : Prop :=
  ∀ (s : State) (nnn : Address) (x : RegIdx),
    (encode (.ldI nnn)).toNat = (0xA000 ||| nnn.toNat) ∧ (encode (.ldFVx x)).toNat = (0xF029 ||| x.toNat <<< 8) ∧
    (∃ t, exec (.ldI nnn) s = .next t ∧ t.i.toNat = nnn.toNat ∧ t.pc = s.pc + 2 ∧ RegsKept [] s t ∧ MemoryKept s t ∧
      StackKept s t ∧ TimersKept s t ∧ DisplayKept s t ∧ RunKept s t ∧ KeysKept s t ∧ RandKept s t) ∧
    (∃ t, exec (.ldFVx x) s = .next t ∧ t.i.toNat = (s.reg x).toNat * 5 ∧ t.pc = s.pc + 2 ∧ RegsKept [] s t ∧ MemoryKept s t ∧
      StackKept s t ∧ TimersKept s t ∧ DisplayKept s t ∧ RunKept s t ∧ KeysKept s t ∧ RandKept s t)

/-- Fx1E adds Vx to I mod 2^16 and writes no flag (43_index_memory.md section 1, the spec's decision D10). -/
def Obligations.AddToIndexWraps : Prop :=
  ∀ (s : State) (x : RegIdx), (encode (.addIVx x)).toNat = (0xF01E ||| x.toNat <<< 8) ∧
    ∃ t, exec (.addIVx x) s = .next t ∧ t.i.toNat = (s.i.toNat + (s.reg x).toNat) % 65536 ∧ t.pc = s.pc + 2 ∧
      RegsKept [] s t ∧ MemoryKept s t ∧ StackKept s t ∧ TimersKept s t ∧ DisplayKept s t ∧ RunKept s t ∧
      KeysKept s t ∧ RandKept s t

/-- Fx33 stores the three decimal digits of Vx, hundreds first, at I, I + 1, I + 2 when I + 2 <= 0xFFF, and changes no other byte
(43_index_memory.md section 2, with the spec's decision D11). -/
def Obligations.DecimalDigitsStored : Prop :=
  ∀ (s : State) (x : RegIdx), (encode (.ldBVx x)).toNat = (0xF033 ||| x.toNat <<< 8) ∧
    (s.mem.wf = true → s.i.toNat + 2 ≤ 0xFFF → ∃ t, exec (.ldBVx x) s = .next t ∧ t.pc = s.pc + 2 ∧
      (t.mem.read s.i.toNat).toNat = (s.reg x).toNat / 100 ∧
      (t.mem.read (s.i.toNat + 1)).toNat = (s.reg x).toNat / 10 % 10 ∧
      (t.mem.read (s.i.toNat + 2)).toNat = (s.reg x).toNat % 10 ∧
      MemoryKeptOutside s.i.toNat 3 s t ∧ RegsKept [] s t ∧ IndexKept s t ∧ StackKept s t ∧ TimersKept s t ∧
      DisplayKept s t ∧ RunKept s t ∧ KeysKept s t ∧ RandKept s t)

/-- Fx55 stores V0 to Vx at I to I + x when I + x <= 0xFFF, leaves I as it is and changes no other byte (43_index_memory.md section
3, with the spec's decisions D11 and D14). -/
def Obligations.RegistersDumped : Prop :=
  ∀ (s : State) (x : RegIdx), (encode (.ldMemVx x)).toNat = (0xF055 ||| x.toNat <<< 8) ∧
    (s.mem.wf = true → s.i.toNat + x.toNat ≤ 0xFFF → ∃ t, exec (.ldMemVx x) s = .next t ∧ t.pc = s.pc + 2 ∧
      (∀ k : RegIdx, k.toNat ≤ x.toNat → t.mem.read (s.i.toNat + k.toNat) = s.reg k) ∧
      MemoryKeptOutside s.i.toNat (x.toNat + 1) s t ∧ RegsKept [] s t ∧ IndexKept s t ∧ StackKept s t ∧ TimersKept s t ∧
      DisplayKept s t ∧ RunKept s t ∧ KeysKept s t ∧ RandKept s t)

/-- Fx65 loads V0 to Vx from I to I + x when I + x <= 0xFFF, leaves I and the registers above Vx as they are and stores nothing
(43_index_memory.md section 3, with the spec's decisions D11 and D14). -/
def Obligations.RegistersLoaded : Prop :=
  ∀ (s : State) (x : RegIdx), (encode (.ldVxMem x)).toNat = (0xF065 ||| x.toNat <<< 8) ∧
    (s.i.toNat + x.toNat ≤ 0xFFF → ∃ t, exec (.ldVxMem x) s = .next t ∧ t.pc = s.pc + 2 ∧
      (∀ k : RegIdx, t.reg k = if k.toNat ≤ x.toNat then s.mem.read (s.i.toNat + k.toNat) else s.reg k) ∧
      MemoryKept s t ∧ IndexKept s t ∧ StackKept s t ∧ TimersKept s t ∧
      DisplayKept s t ∧ RunKept s t ∧ KeysKept s t ∧ RandKept s t)

/-- A data address above 0xFFF (the spec's decisions D11 and D18, DATA_OOB_POLICY = REJECT, assumption 3): Fx33, Fx55, Fx65 and
Dxyn raise OutOfBoundsAccess with pc, the opcode and the lowest such address, and change nothing else; Dxyn with n = 0 accesses
nothing and raises nothing. -/
def Obligations.OutOfBoundsAccessRaised : Prop :=
  ∀ (s : State) (x y : RegIdx) (n : Nibble),
    (0xFFF < s.i.toNat + 2 → ∃ t, exec (.ldBVx x) s = .next t ∧
      FatalEntry (.outOfBoundsAccess s.pc (encode (.ldBVx x)) (max s.i.toNat 0x1000)) s t) ∧
    (0xFFF < s.i.toNat + x.toNat → ∃ t, exec (.ldMemVx x) s = .next t ∧
      FatalEntry (.outOfBoundsAccess s.pc (encode (.ldMemVx x)) (max s.i.toNat 0x1000)) s t) ∧
    (0xFFF < s.i.toNat + x.toNat → ∃ t, exec (.ldVxMem x) s = .next t ∧
      FatalEntry (.outOfBoundsAccess s.pc (encode (.ldVxMem x)) (max s.i.toNat 0x1000)) s t) ∧
    (0 < n.toNat → 0xFFF < s.i.toNat + n.toNat - 1 → ∃ t, exec (.drw x y n) s = .next t ∧
      FatalEntry (.outOfBoundsAccess s.pc (encode (.drw x y n)) (max s.i.toNat 0x1000)) s t) ∧
    (n.toNat = 0 → ∃ t, exec (.drw x y n) s = .next t ∧ RunKept s t)

/-- The other value of DATA_OOB_POLICY, CLAMP (the spec's parameter, D11; assumption 3): Fx33, Fx55, Fx65 and Dxyn raise no error
wherever I points, and an access beyond 0xFFF uses 0xFFF. That of several stores to 0xFFF the last one stays is assumption 34. -/
def Obligations.ClampPolicyUsesLastByte : Prop :=
  ∀ (s : State) (x y : RegIdx) (n : Nibble),
    (s.mem.wf = true → ∃ t, execLdBVxWith .clamp x s = .next t ∧ t.pc = s.pc + 2 ∧
      (s.i.toNat < 0xFFF → (t.mem.read s.i.toNat).toNat = (s.reg x).toNat / 100) ∧
      (s.i.toNat + 1 < 0xFFF → (t.mem.read (s.i.toNat + 1)).toNat = (s.reg x).toNat / 10 % 10) ∧
      (t.mem.read (min (s.i.toNat + 2) 0xFFF)).toNat = (s.reg x).toNat % 10 ∧
      (∀ a, (∀ k < 3, a ≠ min (s.i.toNat + k) 0xFFF) → t.mem.read a = s.mem.read a) ∧
      RegsKept [] s t ∧ IndexKept s t ∧ StackKept s t ∧ TimersKept s t ∧ DisplayKept s t ∧ RunKept s t ∧ KeysKept s t ∧
      RandKept s t) ∧
    (s.mem.wf = true → ∃ t, execLdMemVxWith .clamp x s = .next t ∧ t.pc = s.pc + 2 ∧
      (∀ k : RegIdx, k.toNat ≤ x.toNat → s.i.toNat + k.toNat < 0xFFF → t.mem.read (s.i.toNat + k.toNat) = s.reg k) ∧
      t.mem.read (min (s.i.toNat + x.toNat) 0xFFF) = s.reg x ∧
      (∀ a, (∀ k ≤ x.toNat, a ≠ min (s.i.toNat + k) 0xFFF) → t.mem.read a = s.mem.read a) ∧
      RegsKept [] s t ∧ IndexKept s t ∧ StackKept s t ∧ TimersKept s t ∧ DisplayKept s t ∧ RunKept s t ∧ KeysKept s t ∧
      RandKept s t) ∧
    (∃ t, execLdVxMemWith .clamp x s = .next t ∧ t.pc = s.pc + 2 ∧
      (∀ k : RegIdx, t.reg k =
        if k.toNat ≤ x.toNat then s.mem.read (min (s.i.toNat + k.toNat) 0xFFF) else s.reg k) ∧
      MemoryKept s t ∧ IndexKept s t ∧ StackKept s t ∧ TimersKept s t ∧ DisplayKept s t ∧ RunKept s t ∧ KeysKept s t ∧
      RandKept s t) ∧
    (∃ t, execDrwWith .clamp x y n s = .next t ∧ t.pc = s.pc + 2 ∧ t.drawFlag = true ∧
      (∀ (px : Fin 64) (py : Fin 32),
        (SpriteCoversClamped s x y n px.val py.val →
          t.gfx.get (cellIndex px.val py.val) = s.gfx.get (cellIndex px.val py.val) ^^^ 0x01#8) ∧
        (¬ SpriteCoversClamped s x y n px.val py.val →
          t.gfx.get (cellIndex px.val py.val) = s.gfx.get (cellIndex px.val py.val))) ∧
      ((∃ (px : Fin 64) (py : Fin 32),
          SpriteCoversClamped s x y n px.val py.val ∧ s.gfx.get (cellIndex px.val py.val) = 0x01#8) →
        t.reg 0xF#4 = 0x01#8) ∧
      ((¬ ∃ (px : Fin 64) (py : Fin 32),
          SpriteCoversClamped s x y n px.val py.val ∧ s.gfx.get (cellIndex px.val py.val) = 0x01#8) →
        t.reg 0xF#4 = 0x00#8) ∧
      RegsKept [0xF#4] s t ∧ MemoryKept s t ∧ IndexKept s t ∧ StackKept s t ∧ TimersKept s t ∧ RunKept s t ∧
      KeysKept s t ∧ RandKept s t)

/-- Dump and load round trip (43_index_memory.md section 3, derived there): after an Fx55 that raised no error, an Fx65 with the
same x in any state with the same I and the same bytes of memory gives V0 to Vx back. -/
def Obligations.DumpLoadRoundTrip : Prop :=
  ∀ (s t u : State) (x : RegIdx), s.mem.wf = true → s.i.toNat + x.toNat ≤ 0xFFF → exec (.ldMemVx x) s = .next t →
    u.i = t.i → (∀ a, u.mem.read a = t.mem.read a) →
    ∃ w, exec (.ldVxMem x) u = .next w ∧ ∀ k : RegIdx, k.toNat ≤ x.toNat → w.reg k = s.reg k

/-- A byte that Fx33 or Fx55 stores is seen by the next fetch (20_memory.md section 5, derived there): where a byte stored by an
instruction that raises no error is the high or the low byte of the word at the new pc, the next fetched word has it. -/
def Obligations.StoreIsSeenByNextFetch : Prop :=
  ∀ (s : State) (x : RegIdx), s.mem.wf = true →
    (s.i.toNat + 2 ≤ 0xFFF → ∃ t, exec (.ldBVx x) s = .next t ∧ t.pc = s.pc + 2 ∧
      (s.i.toNat = t.pc.toNat → (fetchWord t).toNat / 256 = (s.reg x).toNat / 100) ∧
      (s.i.toNat + 1 = t.pc.toNat → (fetchWord t).toNat / 256 = (s.reg x).toNat / 10 % 10) ∧
      (s.i.toNat + 2 = t.pc.toNat → (fetchWord t).toNat / 256 = (s.reg x).toNat % 10) ∧
      (s.i.toNat = t.pc.toNat + 1 → (fetchWord t).toNat % 256 = (s.reg x).toNat / 100) ∧
      (s.i.toNat + 1 = t.pc.toNat + 1 → (fetchWord t).toNat % 256 = (s.reg x).toNat / 10 % 10) ∧
      (s.i.toNat + 2 = t.pc.toNat + 1 → (fetchWord t).toNat % 256 = (s.reg x).toNat % 10)) ∧
    (s.i.toNat + x.toNat ≤ 0xFFF → ∃ t, exec (.ldMemVx x) s = .next t ∧ t.pc = s.pc + 2 ∧
      ∀ k : RegIdx, k.toNat ≤ x.toNat →
        (s.i.toNat + k.toNat = t.pc.toNat → (fetchWord t).toNat / 256 = (s.reg k).toNat) ∧
        (s.i.toNat + k.toNat = t.pc.toNat + 1 → (fetchWord t).toNat % 256 = (s.reg k).toNat))

/-! ### Display -/

/-- 44_display.md R180. -/
def Obligations.ClearScreen : Prop :=
  ∀ s : State, encode .cls = 0x00E0#16 ∧
    ∃ t, exec .cls s = .next t ∧ (∀ k : Fin 2048, t.gfx.get k = 0x00#8) ∧ t.drawFlag = true ∧ t.pc = s.pc + 2 ∧
      RegsKept [] s t ∧ MemoryKept s t ∧ IndexKept s t ∧ StackKept s t ∧ TimersKept s t ∧ RunKept s t ∧
      KeysKept s t ∧ RandKept s t

/-- Dxyn inverts exactly the pixels under a set sprite bit, each coordinate wrapped per pixel and the coordinates read before VF
is written, sets the draw flag, and leaves everything else but VF and pc as it was, when its sprite lies within memory
(44_display.md, with the spec's decisions D11, D12 and D13). -/
def Obligations.SpriteInvertsCoveredPixels : Prop :=
  ∀ (s : State) (x y : RegIdx) (n : Nibble),
    (encode (.drw x y n)).toNat = (0xD000 ||| x.toNat <<< 8 ||| y.toNat <<< 4 ||| n.toNat) ∧
    (n.toNat = 0 ∨ s.i.toNat + n.toNat ≤ 0x1000 → ∃ t, exec (.drw x y n) s = .next t ∧
      (∀ (px : Fin 64) (py : Fin 32),
        (SpriteCovers s x y n px.val py.val →
          t.gfx.get (cellIndex px.val py.val) = s.gfx.get (cellIndex px.val py.val) ^^^ 0x01#8) ∧
        (¬ SpriteCovers s x y n px.val py.val →
          t.gfx.get (cellIndex px.val py.val) = s.gfx.get (cellIndex px.val py.val))) ∧
      t.drawFlag = true ∧ t.pc = s.pc + 2 ∧ RegsKept [0xF#4] s t ∧ MemoryKept s t ∧ IndexKept s t ∧ StackKept s t ∧
      TimersKept s t ∧ RunKept s t ∧ KeysKept s t ∧ RandKept s t)

/-- VF is 1 exactly when a set sprite bit hit a pixel that was 1, else 0, on every Dxyn that does not fault (44_display.md, the rule
of the collision); where no set sprite bit falls the cell is unchanged. Which pixel a bit hits is by the wrap of each coordinate and by
bit 7 as the leftmost, the spec's decision D12 (assumption 21); when Dxyn faults is D11 (assumption 3). -/
def Obligations.CollisionFlag : Prop :=
  ∀ (s : State) (x y : RegIdx) (n : Nibble), n.toNat = 0 ∨ s.i.toNat + n.toNat ≤ 0x1000 →
    ∃ t, exec (.drw x y n) s = .next t ∧
      ((∃ (px : Fin 64) (py : Fin 32), SpriteCovers s x y n px.val py.val ∧ s.gfx.get (cellIndex px.val py.val) = 0x01#8) →
        t.reg 0xF#4 = 0x01#8) ∧
      ((¬ ∃ (px : Fin 64) (py : Fin 32),
          SpriteCovers s x y n px.val py.val ∧ s.gfx.get (cellIndex px.val py.val) = 0x01#8) →
        t.reg 0xF#4 = 0x00#8) ∧
      (∀ (px : Fin 64) (py : Fin 32), ¬ SpriteCovers s x y n px.val py.val →
        t.gfx.get (cellIndex px.val py.val) = s.gfx.get (cellIndex px.val py.val))

/-! ### Keys and timers -/

/-- Ex9E and ExA1: a register value below 16 tests that key's level, a value of 16 or more names no key, so Ex9E does not skip
and ExA1 does (45_timers_keys.md section 1, the spec's decisions D17 and D30). -/
def Obligations.KeySkips : Prop :=
  ∀ (s : State) (x : RegIdx),
    (encode (.skp x)).toNat = (0xE09E ||| x.toNat <<< 8) ∧ (encode (.sknp x)).toNat = (0xE0A1 ||| x.toNat <<< 8) ∧
    (∃ t, exec (.skp x) s = .next t ∧ OnlyRegsAndPc [] s t ∧
      (∀ k : Fin 16, (s.reg x).toNat = k.val → t.pc = if s.keys[k.val] = true then s.pc + 4 else s.pc + 2) ∧
      (16 ≤ (s.reg x).toNat → t.pc = s.pc + 2)) ∧
    (∃ t, exec (.sknp x) s = .next t ∧ OnlyRegsAndPc [] s t ∧
      (∀ k : Fin 16, (s.reg x).toNat = k.val → t.pc = if s.keys[k.val] = true then s.pc + 2 else s.pc + 4) ∧
      (16 ≤ (s.reg x).toNat → t.pc = s.pc + 4))

/-- 45_timers_keys.md R193: Fx07 reads DT before its own step's tick. -/
def Obligations.DelayTimerRead : Prop :=
  ∀ (s : State) (x : RegIdx), (encode (.ldVxDt x)).toNat = (0xF007 ||| x.toNat <<< 8) ∧
    (∃ t, exec (.ldVxDt x) s = .next t ∧ t.reg x = s.dt ∧ t.pc = s.pc + 2 ∧ OnlyRegsAndPc [x] s t) ∧
    (Executes s (.ldVxDt x) → ∃ t, step s = .next t ∧ t.reg x = s.dt ∧ t.dt.toNat = s.dt.toNat - 1 ∧ t.pc = s.pc + 2)

/-- 45_timers_keys.md R195: Fx15 sets DT to Vx, and the tick of the same step follows. -/
def Obligations.DelayTimerWritten : Prop :=
  ∀ (s : State) (x : RegIdx), (encode (.ldDtVx x)).toNat = (0xF015 ||| x.toNat <<< 8) ∧
    (∃ t, exec (.ldDtVx x) s = .next t ∧ t.dt = s.reg x ∧ t.st = s.st ∧ t.pc = s.pc + 2 ∧ RegsKept [] s t ∧ MemoryKept s t ∧
      IndexKept s t ∧ StackKept s t ∧ DisplayKept s t ∧ RunKept s t ∧ KeysKept s t ∧ RandKept s t) ∧
    (Executes s (.ldDtVx x) → ∃ t, step s = .next t ∧ t.dt.toNat = (s.reg x).toNat - 1 ∧ t.pc = s.pc + 2)

/-- Fx18 sets ST to Vx and reports nothing by itself; the tick of the same step then leaves max(Vx - 1, 0) and beeps exactly when
Vx = 1, whatever ST was (45_timers_keys.md section 4, the spec's decision D28). -/
def Obligations.SoundTimerWritten : Prop :=
  ∀ (s : State) (x : RegIdx), (encode (.ldStVx x)).toNat = (0xF018 ||| x.toNat <<< 8) ∧
    (∃ t, exec (.ldStVx x) s = .next t ∧ t.st = s.reg x ∧ t.dt = s.dt ∧ t.pc = s.pc + 2 ∧ RegsKept [] s t ∧ MemoryKept s t ∧
      IndexKept s t ∧ StackKept s t ∧ DisplayKept s t ∧ RunKept s t ∧ KeysKept s t ∧ RandKept s t) ∧
    (Executes s (.ldStVx x) → ∃ t, step s = .next t ∧ t.st.toNat = (s.reg x).toNat - 1 ∧ t.pc = s.pc + 2 ∧
      t.result = .ok ⟨decide ((s.reg x).toNat = 1), none⟩)

/-- Fx0A completes at once with the lowest held key, and with none held starts to wait with pc unchanged (45_timers_keys.md section
3, the spec's decisions D15 and D16). -/
def Obligations.KeyWaitInstruction : Prop :=
  ∀ (s : State) (x : RegIdx), (encode (.ldVxK x)).toNat = (0xF00A ||| x.toNat <<< 8) ∧
    (∀ k : Fin 16, s.keys[k.val] = true → (∀ j : Fin 16, j.val < k.val → s.keys[j.val] = false) →
      ∃ t, exec (.ldVxK x) s = .next t ∧ (t.reg x).toNat = k.val ∧ t.pc = s.pc + 2 ∧ OnlyRegsAndPc [x] s t) ∧
    ((∀ k : Fin 16, s.keys[k.val] = false) →
      ∃ t, exec (.ldVxK x) s = .next t ∧ t.runState = .awaitingKey x ∧ t.pc = s.pc ∧ RegsKept [] s t ∧ MemoryKept s t ∧
        IndexKept s t ∧ StackKept s t ∧ TimersKept s t ∧ DisplayKept s t ∧ KeysKept s t ∧ RandKept s t ∧ t.result = s.result)

/-! ### Host operations -/

/-- The created state holds the values of 10_state.md section 9 (the spec's decisions D23, D25 and D33), the 80 bytes of the default
FONT written out from the table of 70_reset_and_hazards.md section 1 (assumption 4), and `reset()` puts every state element to that value
from any state, a halted one too. It leaves the Key State to the host; that it leaves the random source and clears the returned value
is the model's choice (assumption 25). -/
def Obligations.ResetRestoresCreatedState : Prop :=
  ((∀ k, k < 80 → some (State.reset.mem.read k) =
      ([0xF0#8, 0x90#8, 0x90#8, 0x90#8, 0xF0#8] ++ [0x20#8, 0x60#8, 0x20#8, 0x20#8, 0x70#8] ++
       [0xF0#8, 0x10#8, 0xF0#8, 0x80#8, 0xF0#8] ++ [0xF0#8, 0x10#8, 0xF0#8, 0x10#8, 0xF0#8] ++
       [0x90#8, 0x90#8, 0xF0#8, 0x10#8, 0x10#8] ++ [0xF0#8, 0x80#8, 0xF0#8, 0x10#8, 0xF0#8] ++
       [0xF0#8, 0x80#8, 0xF0#8, 0x90#8, 0xF0#8] ++ [0xF0#8, 0x10#8, 0x20#8, 0x40#8, 0x40#8] ++
       [0xF0#8, 0x90#8, 0xF0#8, 0x90#8, 0xF0#8] ++ [0xF0#8, 0x90#8, 0xF0#8, 0x10#8, 0xF0#8] ++
       [0xF0#8, 0x90#8, 0xF0#8, 0x90#8, 0x90#8] ++ [0xE0#8, 0x90#8, 0xE0#8, 0x90#8, 0xE0#8] ++
       [0xF0#8, 0x80#8, 0x80#8, 0x80#8, 0xF0#8] ++ [0xE0#8, 0x90#8, 0x90#8, 0x90#8, 0xE0#8] ++
       [0xF0#8, 0x80#8, 0xF0#8, 0x80#8, 0xF0#8] ++ [0xF0#8, 0x80#8, 0xF0#8, 0x80#8, 0x80#8])[k]?) ∧
    (∀ k, 80 ≤ k → k < 4096 → State.reset.mem.read k = 0x00#8) ∧
    (∀ x, State.reset.reg x = 0x00#8) ∧ State.reset.i = 0x0000#16 ∧ State.reset.pc = 0x0200#16 ∧
    (∀ k : Fin 16, State.reset.stack[k.val] = 0x0000#16) ∧ State.reset.sp.val = 0 ∧ State.reset.dt = 0x00#8 ∧
    State.reset.st = 0x00#8 ∧ (∀ k : Fin 2048, State.reset.gfx.get k = 0x00#8) ∧ State.reset.drawFlag = false ∧
    State.reset.runState = .running) ∧
  (∀ s : State, KeysKept s (hostReset s) ∧ RandKept s (hostReset s) ∧
    { hostReset s with keys := State.reset.keys, randSupply := State.reset.randSupply, randDraws := State.reset.randDraws } =
      State.reset)

/-- FONT is a parameter (00_scope.md section 4, 70_reset_and_hazards.md section 1, the spec's decision D25): with any 80 bytes as FONT, the
created machine holds them at 0 to 79, 0 in the rest of memory and in every other element what the default machine holds; `reset()`
from any state gives that again, but for the inputs (assumption 25); and Fx29 on a digit d points I at the five bytes of its glyph. With
the default FONT these are `State.reset` and `hostReset`. -/
def Obligations.FontIsAParameter : Prop :=
  (∀ table : Font,
    (∀ (k : Nat) (h : k < 80), (created table).mem.read k = table[k]) ∧
    (∀ k, 80 ≤ k → k < 4096 → (created table).mem.read k = 0x00#8) ∧
    created table = { State.reset with mem := (created table).mem } ∧
    (∀ s : State, hostResetWith table s =
      { created table with keys := s.keys, randSupply := s.randSupply, randDraws := s.randDraws }) ∧
    (∀ (s : State) (x : RegIdx) (d : Fin 16) (r : Fin 5), (s.reg x).toNat = d.val → s.mem = (created table).mem →
      ∃ t, exec (.ldFVx x) s = .next t ∧ t.mem.read (t.i.toNat + r.val) = table[5 * d.val + r.val])) ∧
  created font = State.reset ∧ (∀ s : State, hostReset s = hostResetWith font s)

/-- `load` (70_reset_and_hazards.md section 2, the spec's decision D24): at most 3584 bytes go to 0x200 on and nothing else
changes, run_state included; more are rejected whole with their count. -/
def Obligations.LoadPlacesProgram : Prop :=
  ∀ (bytes : List Byte) (s : State), s.mem.wf = true →
    (bytes.length ≤ 3584 → ∃ t, hostLoad bytes s = .ok t ∧ t = { s with mem := t.mem } ∧
      (∀ k, k < bytes.length → some (t.mem.read (0x200 + k)) = bytes[k]?) ∧ MemoryKeptOutside 0x200 bytes.length s t) ∧
    (3584 < bytes.length → hostLoad bytes s = .programTooLarge bytes.length ∧ applyHostOp (.load bytes) s = s)
end

