-- ==== Sys2Proof/Laws/Memory.lean ====
section
/-! SUPPORT. Memory: read after write, and that every operation keeps the canonical form. -/

namespace Sys2Proof.Machine
namespace Memory

@[simp] theorem read_nil (a : Nat) : read [] a = unlisted a := rfl

theorem read_below {lo : Nat} (m : Memory) (h : wfFrom lo m = true) (a : Nat) (ha : a < lo) : read m a = unlisted a := by
  induction m generalizing lo with
  | nil => rfl
  | cons d m ih =>
    obtain ⟨d, u⟩ := d
    simp only [wfFrom, Bool.and_eq_true, decide_eq_true_eq] at h
    rw [read, if_neg (by omega), ih h.2 (by omega)]

theorem read_cons (c : Nat) (w : Byte) (m : Memory) (b : Nat) :
    read ((c, w) :: m) b = if c = b then w else read m b := rfl

theorem read_put (m : Memory) (a b : Nat) (v : Byte) (lo : Nat) (h : wfFrom lo m = true) :
    read (put m a v) b = if b = a then v else read m b := by
  induction m generalizing lo with
  | nil =>
    rw [put]
    by_cases e : b = a <;> by_cases hv : v = unlisted a <;> simp [e, hv, read_cons, Ne.symm]
  | cons c m ih =>
    obtain ⟨c, w⟩ := c
    simp only [wfFrom, Bool.and_eq_true, decide_eq_true_eq] at h
    have below := fun hb : b < c + 1 => read_below m h.2 b hb
    rw [put]
    rcases lt_trichotomy a c with g | g | g
    · rw [if_pos g]
      by_cases e : b = a
      · rw [if_pos e]
        by_cases hv : v = unlisted a
        · rw [if_pos hv, read_cons, if_neg (by omega), below (by omega), hv, e]
        · rw [if_neg hv, read_cons, if_pos e.symm]
      · rw [if_neg e]
        split
        · rfl
        · rw [read_cons, if_neg (Ne.symm e)]
    · rw [if_neg (by omega), if_pos g]
      by_cases e : b = a
      · rw [if_pos e]
        by_cases hv : v = unlisted a
        · rw [if_pos hv, below (by omega), hv, e]
        · rw [if_neg hv, read_cons, if_pos e.symm]
      · rw [if_neg e, read_cons, if_neg (show ¬ c = b by omega)]
        split
        · rfl
        · rw [read_cons, if_neg (Ne.symm e)]
    · rw [if_neg (by omega), if_neg (by omega), read_cons, read_cons, ih _ h.2]
      by_cases e : c = b
      · rw [if_pos e, if_pos e, if_neg (by omega)]
      · rw [if_neg e, if_neg e]

/-- Reading after writing: the byte written at its address, every other byte as before. -/
theorem read_write (m : Memory) (a b : Nat) (v : Byte) (h : m.wf = true) (ha : a < 4096) :
    read (write m a v) b = if b = a then v else read m b := by
  rw [write, if_pos ha]; exact read_put m a b v 0 h

theorem wfFrom_mono {lo lo' : Nat} (hle : lo ≤ lo') (m : Memory) (h : wfFrom lo' m = true) : wfFrom lo m = true := by
  cases m with
  | nil => rfl
  | cons c m =>
    simp only [wfFrom, Bool.and_eq_true, decide_eq_true_eq] at h ⊢
    exact ⟨⟨⟨by omega, h.1.1.2⟩, h.1.2⟩, h.2⟩

theorem wfFrom_put (m : Memory) (a : Nat) (v : Byte) (lo : Nat) (hlo : lo ≤ a) (ha : a < 4096)
    (h : wfFrom lo m = true) : wfFrom lo (put m a v) = true := by
  induction m generalizing lo with
  | nil =>
    simp only [put]
    split
    · rfl
    · simp only [wfFrom, Bool.and_eq_true, decide_eq_true_eq]
      exact ⟨⟨⟨hlo, ha⟩, ‹_›⟩, trivial⟩
  | cons c m ih =>
    obtain ⟨c, w⟩ := c
    have h' := h
    simp only [wfFrom, Bool.and_eq_true, decide_eq_true_eq] at h
    obtain ⟨⟨⟨h1, h2⟩, h3⟩, h4⟩ := h
    simp only [put]
    split_ifs with g1 g2 g3 g4
    · exact h'
    · simp only [wfFrom, Bool.and_eq_true, decide_eq_true_eq]
      exact ⟨⟨⟨hlo, ha⟩, g2⟩, ⟨⟨by omega, h2⟩, h3⟩, h4⟩
    · exact wfFrom_mono (by omega) m h4
    · simp only [wfFrom, Bool.and_eq_true, decide_eq_true_eq]
      subst g3
      exact ⟨⟨⟨hlo, ha⟩, g4⟩, h4⟩
    · simp only [wfFrom, Bool.and_eq_true, decide_eq_true_eq]
      exact ⟨⟨⟨h1, h2⟩, h3⟩, ih (c + 1) (by omega) h4⟩

theorem wf_write (m : Memory) (a : Nat) (v : Byte) (h : m.wf = true) : (m.write a v).wf = true := by
  unfold write
  split
  · exact wfFrom_put m a v 0 (by omega) ‹_› h
  · exact h

theorem wf_reset : State.reset.mem.wf = true := rfl

end Memory

theorem wf_storeBytes (p : DataOobPolicy) (bs : List Byte) (m : Memory) (a : Nat) (h : m.wf = true) :
    (storeBytes p m a bs).wf = true := by
  induction bs generalizing m a with
  | nil => exact h
  | cons b bs ih => exact ih _ _ (Memory.wf_write _ _ _ h)

/-- What a run of byte stores leaves at each address, when it lies within memory (20_memory.md R56, REJECT or not). -/
theorem read_storeBytes (bs : List Byte) (m : Memory) (a c : Nat) (h : m.wf = true) (hb : a + bs.length ≤ 4096) :
    (storeBytes .reject m a bs).read c = if a ≤ c then bs.getD (c - a) (m.read c) else m.read c := by
  induction bs generalizing m a with
  | nil => simp [storeBytes]
  | cons b bs ih =>
    simp only [List.length_cons] at hb
    rw [storeBytes, ih _ _ (Memory.wf_write _ _ _ h) (by omega)]
    simp only [dataAddr, Memory.read_write m a c b h (by omega)]
    rcases lt_trichotomy c a with g | g | g
    · rw [if_neg (by omega), if_neg (by omega), if_neg (by omega)]
    · subst g; simp
    · obtain ⟨k, rfl⟩ := Nat.exists_eq_add_of_lt g
      rw [if_pos (show a + 1 ≤ a + k + 1 by omega), if_pos (show a ≤ a + k + 1 by omega),
        if_neg (show ¬ a + k + 1 = a by omega), show a + k + 1 - (a + 1) = k by omega,
        show a + k + 1 - a = k + 1 by omega]
      rfl

/-- The same under CLAMP: stores beyond 0xFFF go to 0xFFF, where the last one stays (20_memory.md R56). -/
theorem read_storeBytes_clamp (bs : List Byte) (m : Memory) (a c : Nat) (h : m.wf = true) :
    (storeBytes .clamp m a bs).read c =
      if c < 0xFFF then (if a ≤ c then bs.getD (c - a) (m.read c) else m.read c)
      else if c = 0xFFF ∧ 0xFFF < a + bs.length then bs.getLastD (m.read c) else m.read c := by
  induction bs generalizing m a with
  | nil => simp [storeBytes]
  | cons b bs ih =>
    rw [storeBytes, ih _ _ (Memory.wf_write _ _ _ h)]
    rw [Memory.read_write _ _ _ _ h (by simp [dataAddr]), show dataAddr .clamp a = min a 0xFFF from rfl]
    simp only [List.length_cons]
    by_cases hc : c < 0xFFF
    · rw [if_pos hc, if_pos hc]
      rcases lt_trichotomy c a with g | g | g
      · rw [if_neg (by omega), if_neg (by omega), if_neg (by omega)]
      · subst g; rw [if_neg (by omega), if_pos (by omega), if_pos (by omega)]; simp
      · obtain ⟨k, rfl⟩ := Nat.exists_eq_add_of_lt g
        rw [if_pos (show a + 1 ≤ a + k + 1 by omega), if_pos (show a ≤ a + k + 1 by omega),
          if_neg (show ¬ a + k + 1 = min a 0xFFF by omega), show a + k + 1 - (a + 1) = k by omega,
          show a + k + 1 - a = k + 1 by omega]
        rfl
    · rw [if_neg hc, if_neg hc]
      by_cases hc2 : c = 0xFFF
      · subst hc2
        by_cases g : 0xFFF < a + 1 + bs.length
        · have g2 : 0xFFF < a + (bs.length + 1) := by omega
          simp only [g, g2, and_self, if_true]
          cases bs with
          | nil => simp at g ⊢; omega
          | cons d ds => simp [List.getLastD]
        · rw [if_neg (by omega), if_neg (by omega), if_neg (by omega)]
      · rw [if_neg (by omega), if_neg (by omega), if_neg (by omega)]

theorem loadBytes_eq_storeBytes (bs : List Byte) (m : Memory) (a : Nat) :
    loadBytes m a bs = storeBytes .reject m a bs := by
  induction bs generalizing m a with
  | nil => rfl
  | cons b bs ih => exact ih _ _

end Sys2Proof.Machine
end

