-- ==== Sys2Proof/Laws/State.lean ====
section
/-! SUPPORT. Every update of the state, field by field: what it writes and what it leaves. -/

namespace Sys2Proof.Machine

/-! `setReg` -/

@[simp] theorem State.setReg_mem (s : State) (x : RegIdx) (b : Byte) : (s.setReg x b).mem = s.mem := rfl
@[simp] theorem State.setReg_v (s : State) (x : RegIdx) (b : Byte) : (s.setReg x b).v = s.v.set x.toNat b := rfl
@[simp] theorem State.setReg_i (s : State) (x : RegIdx) (b : Byte) : (s.setReg x b).i = s.i := rfl
@[simp] theorem State.setReg_pc (s : State) (x : RegIdx) (b : Byte) : (s.setReg x b).pc = s.pc := rfl
@[simp] theorem State.setReg_stack (s : State) (x : RegIdx) (b : Byte) : (s.setReg x b).stack = s.stack := rfl
@[simp] theorem State.setReg_sp (s : State) (x : RegIdx) (b : Byte) : (s.setReg x b).sp = s.sp := rfl
@[simp] theorem State.setReg_dt (s : State) (x : RegIdx) (b : Byte) : (s.setReg x b).dt = s.dt := rfl
@[simp] theorem State.setReg_st (s : State) (x : RegIdx) (b : Byte) : (s.setReg x b).st = s.st := rfl
@[simp] theorem State.setReg_gfx (s : State) (x : RegIdx) (b : Byte) : (s.setReg x b).gfx = s.gfx := rfl
@[simp] theorem State.setReg_drawFlag (s : State) (x : RegIdx) (b : Byte) : (s.setReg x b).drawFlag = s.drawFlag := rfl
@[simp] theorem State.setReg_runState (s : State) (x : RegIdx) (b : Byte) : (s.setReg x b).runState = s.runState := rfl
@[simp] theorem State.setReg_keys (s : State) (x : RegIdx) (b : Byte) : (s.setReg x b).keys = s.keys := rfl
@[simp] theorem State.setReg_randSupply (s : State) (x : RegIdx) (b : Byte) : (s.setReg x b).randSupply = s.randSupply := rfl
@[simp] theorem State.setReg_randDraws (s : State) (x : RegIdx) (b : Byte) : (s.setReg x b).randDraws = s.randDraws := rfl
@[simp] theorem State.setReg_result (s : State) (x : RegIdx) (b : Byte) : (s.setReg x b).result = s.result := rfl

/-! `setPc` -/

@[simp] theorem State.setPc_mem (s : State) (w : Word) : (s.setPc w).mem = s.mem := rfl
@[simp] theorem State.setPc_v (s : State) (w : Word) : (s.setPc w).v = s.v := rfl
@[simp] theorem State.setPc_i (s : State) (w : Word) : (s.setPc w).i = s.i := rfl
@[simp] theorem State.setPc_pc (s : State) (w : Word) : (s.setPc w).pc = w := rfl
@[simp] theorem State.setPc_stack (s : State) (w : Word) : (s.setPc w).stack = s.stack := rfl
@[simp] theorem State.setPc_sp (s : State) (w : Word) : (s.setPc w).sp = s.sp := rfl
@[simp] theorem State.setPc_dt (s : State) (w : Word) : (s.setPc w).dt = s.dt := rfl
@[simp] theorem State.setPc_st (s : State) (w : Word) : (s.setPc w).st = s.st := rfl
@[simp] theorem State.setPc_gfx (s : State) (w : Word) : (s.setPc w).gfx = s.gfx := rfl
@[simp] theorem State.setPc_drawFlag (s : State) (w : Word) : (s.setPc w).drawFlag = s.drawFlag := rfl
@[simp] theorem State.setPc_runState (s : State) (w : Word) : (s.setPc w).runState = s.runState := rfl
@[simp] theorem State.setPc_keys (s : State) (w : Word) : (s.setPc w).keys = s.keys := rfl
@[simp] theorem State.setPc_randSupply (s : State) (w : Word) : (s.setPc w).randSupply = s.randSupply := rfl
@[simp] theorem State.setPc_randDraws (s : State) (w : Word) : (s.setPc w).randDraws = s.randDraws := rfl
@[simp] theorem State.setPc_result (s : State) (w : Word) : (s.setPc w).result = s.result := rfl

/-! `advance` -/

@[simp] theorem State.advance_mem (s : State) : (s.advance).mem = s.mem := rfl
@[simp] theorem State.advance_v (s : State) : (s.advance).v = s.v := rfl
@[simp] theorem State.advance_i (s : State) : (s.advance).i = s.i := rfl
@[simp] theorem State.advance_pc (s : State) : (s.advance).pc = s.pc + 2 := rfl
@[simp] theorem State.advance_stack (s : State) : (s.advance).stack = s.stack := rfl
@[simp] theorem State.advance_sp (s : State) : (s.advance).sp = s.sp := rfl
@[simp] theorem State.advance_dt (s : State) : (s.advance).dt = s.dt := rfl
@[simp] theorem State.advance_st (s : State) : (s.advance).st = s.st := rfl
@[simp] theorem State.advance_gfx (s : State) : (s.advance).gfx = s.gfx := rfl
@[simp] theorem State.advance_drawFlag (s : State) : (s.advance).drawFlag = s.drawFlag := rfl
@[simp] theorem State.advance_runState (s : State) : (s.advance).runState = s.runState := rfl
@[simp] theorem State.advance_keys (s : State) : (s.advance).keys = s.keys := rfl
@[simp] theorem State.advance_randSupply (s : State) : (s.advance).randSupply = s.randSupply := rfl
@[simp] theorem State.advance_randDraws (s : State) : (s.advance).randDraws = s.randDraws := rfl
@[simp] theorem State.advance_result (s : State) : (s.advance).result = s.result := rfl

/-! `skipIf` -/

@[simp] theorem State.skipIf_mem (s : State) (c : Bool) : (s.skipIf c).mem = s.mem := rfl
@[simp] theorem State.skipIf_v (s : State) (c : Bool) : (s.skipIf c).v = s.v := rfl
@[simp] theorem State.skipIf_i (s : State) (c : Bool) : (s.skipIf c).i = s.i := rfl
@[simp] theorem State.skipIf_pc (s : State) (c : Bool) : (s.skipIf c).pc = if c then s.pc + 4 else s.pc + 2 := rfl
@[simp] theorem State.skipIf_stack (s : State) (c : Bool) : (s.skipIf c).stack = s.stack := rfl
@[simp] theorem State.skipIf_sp (s : State) (c : Bool) : (s.skipIf c).sp = s.sp := rfl
@[simp] theorem State.skipIf_dt (s : State) (c : Bool) : (s.skipIf c).dt = s.dt := rfl
@[simp] theorem State.skipIf_st (s : State) (c : Bool) : (s.skipIf c).st = s.st := rfl
@[simp] theorem State.skipIf_gfx (s : State) (c : Bool) : (s.skipIf c).gfx = s.gfx := rfl
@[simp] theorem State.skipIf_drawFlag (s : State) (c : Bool) : (s.skipIf c).drawFlag = s.drawFlag := rfl
@[simp] theorem State.skipIf_runState (s : State) (c : Bool) : (s.skipIf c).runState = s.runState := rfl
@[simp] theorem State.skipIf_keys (s : State) (c : Bool) : (s.skipIf c).keys = s.keys := rfl
@[simp] theorem State.skipIf_randSupply (s : State) (c : Bool) : (s.skipIf c).randSupply = s.randSupply := rfl
@[simp] theorem State.skipIf_randDraws (s : State) (c : Bool) : (s.skipIf c).randDraws = s.randDraws := rfl
@[simp] theorem State.skipIf_result (s : State) (c : Bool) : (s.skipIf c).result = s.result := rfl

/-! `setI` -/

@[simp] theorem State.setI_mem (s : State) (w : Word) : (s.setI w).mem = s.mem := rfl
@[simp] theorem State.setI_v (s : State) (w : Word) : (s.setI w).v = s.v := rfl
@[simp] theorem State.setI_i (s : State) (w : Word) : (s.setI w).i = w := rfl
@[simp] theorem State.setI_pc (s : State) (w : Word) : (s.setI w).pc = s.pc := rfl
@[simp] theorem State.setI_stack (s : State) (w : Word) : (s.setI w).stack = s.stack := rfl
@[simp] theorem State.setI_sp (s : State) (w : Word) : (s.setI w).sp = s.sp := rfl
@[simp] theorem State.setI_dt (s : State) (w : Word) : (s.setI w).dt = s.dt := rfl
@[simp] theorem State.setI_st (s : State) (w : Word) : (s.setI w).st = s.st := rfl
@[simp] theorem State.setI_gfx (s : State) (w : Word) : (s.setI w).gfx = s.gfx := rfl
@[simp] theorem State.setI_drawFlag (s : State) (w : Word) : (s.setI w).drawFlag = s.drawFlag := rfl
@[simp] theorem State.setI_runState (s : State) (w : Word) : (s.setI w).runState = s.runState := rfl
@[simp] theorem State.setI_keys (s : State) (w : Word) : (s.setI w).keys = s.keys := rfl
@[simp] theorem State.setI_randSupply (s : State) (w : Word) : (s.setI w).randSupply = s.randSupply := rfl
@[simp] theorem State.setI_randDraws (s : State) (w : Word) : (s.setI w).randDraws = s.randDraws := rfl
@[simp] theorem State.setI_result (s : State) (w : Word) : (s.setI w).result = s.result := rfl

/-! `setDt` -/

@[simp] theorem State.setDt_mem (s : State) (b : Byte) : (s.setDt b).mem = s.mem := rfl
@[simp] theorem State.setDt_v (s : State) (b : Byte) : (s.setDt b).v = s.v := rfl
@[simp] theorem State.setDt_i (s : State) (b : Byte) : (s.setDt b).i = s.i := rfl
@[simp] theorem State.setDt_pc (s : State) (b : Byte) : (s.setDt b).pc = s.pc := rfl
@[simp] theorem State.setDt_stack (s : State) (b : Byte) : (s.setDt b).stack = s.stack := rfl
@[simp] theorem State.setDt_sp (s : State) (b : Byte) : (s.setDt b).sp = s.sp := rfl
@[simp] theorem State.setDt_dt (s : State) (b : Byte) : (s.setDt b).dt = b := rfl
@[simp] theorem State.setDt_st (s : State) (b : Byte) : (s.setDt b).st = s.st := rfl
@[simp] theorem State.setDt_gfx (s : State) (b : Byte) : (s.setDt b).gfx = s.gfx := rfl
@[simp] theorem State.setDt_drawFlag (s : State) (b : Byte) : (s.setDt b).drawFlag = s.drawFlag := rfl
@[simp] theorem State.setDt_runState (s : State) (b : Byte) : (s.setDt b).runState = s.runState := rfl
@[simp] theorem State.setDt_keys (s : State) (b : Byte) : (s.setDt b).keys = s.keys := rfl
@[simp] theorem State.setDt_randSupply (s : State) (b : Byte) : (s.setDt b).randSupply = s.randSupply := rfl
@[simp] theorem State.setDt_randDraws (s : State) (b : Byte) : (s.setDt b).randDraws = s.randDraws := rfl
@[simp] theorem State.setDt_result (s : State) (b : Byte) : (s.setDt b).result = s.result := rfl

/-! `setSt` -/

@[simp] theorem State.setSt_mem (s : State) (b : Byte) : (s.setSt b).mem = s.mem := rfl
@[simp] theorem State.setSt_v (s : State) (b : Byte) : (s.setSt b).v = s.v := rfl
@[simp] theorem State.setSt_i (s : State) (b : Byte) : (s.setSt b).i = s.i := rfl
@[simp] theorem State.setSt_pc (s : State) (b : Byte) : (s.setSt b).pc = s.pc := rfl
@[simp] theorem State.setSt_stack (s : State) (b : Byte) : (s.setSt b).stack = s.stack := rfl
@[simp] theorem State.setSt_sp (s : State) (b : Byte) : (s.setSt b).sp = s.sp := rfl
@[simp] theorem State.setSt_dt (s : State) (b : Byte) : (s.setSt b).dt = s.dt := rfl
@[simp] theorem State.setSt_st (s : State) (b : Byte) : (s.setSt b).st = b := rfl
@[simp] theorem State.setSt_gfx (s : State) (b : Byte) : (s.setSt b).gfx = s.gfx := rfl
@[simp] theorem State.setSt_drawFlag (s : State) (b : Byte) : (s.setSt b).drawFlag = s.drawFlag := rfl
@[simp] theorem State.setSt_runState (s : State) (b : Byte) : (s.setSt b).runState = s.runState := rfl
@[simp] theorem State.setSt_keys (s : State) (b : Byte) : (s.setSt b).keys = s.keys := rfl
@[simp] theorem State.setSt_randSupply (s : State) (b : Byte) : (s.setSt b).randSupply = s.randSupply := rfl
@[simp] theorem State.setSt_randDraws (s : State) (b : Byte) : (s.setSt b).randDraws = s.randDraws := rfl
@[simp] theorem State.setSt_result (s : State) (b : Byte) : (s.setSt b).result = s.result := rfl

/-! `setRunState` -/

@[simp] theorem State.setRunState_mem (s : State) (r : RunState) : (s.setRunState r).mem = s.mem := rfl
@[simp] theorem State.setRunState_v (s : State) (r : RunState) : (s.setRunState r).v = s.v := rfl
@[simp] theorem State.setRunState_i (s : State) (r : RunState) : (s.setRunState r).i = s.i := rfl
@[simp] theorem State.setRunState_pc (s : State) (r : RunState) : (s.setRunState r).pc = s.pc := rfl
@[simp] theorem State.setRunState_stack (s : State) (r : RunState) : (s.setRunState r).stack = s.stack := rfl
@[simp] theorem State.setRunState_sp (s : State) (r : RunState) : (s.setRunState r).sp = s.sp := rfl
@[simp] theorem State.setRunState_dt (s : State) (r : RunState) : (s.setRunState r).dt = s.dt := rfl
@[simp] theorem State.setRunState_st (s : State) (r : RunState) : (s.setRunState r).st = s.st := rfl
@[simp] theorem State.setRunState_gfx (s : State) (r : RunState) : (s.setRunState r).gfx = s.gfx := rfl
@[simp] theorem State.setRunState_drawFlag (s : State) (r : RunState) : (s.setRunState r).drawFlag = s.drawFlag := rfl
@[simp] theorem State.setRunState_runState (s : State) (r : RunState) : (s.setRunState r).runState = r := rfl
@[simp] theorem State.setRunState_keys (s : State) (r : RunState) : (s.setRunState r).keys = s.keys := rfl
@[simp] theorem State.setRunState_randSupply (s : State) (r : RunState) : (s.setRunState r).randSupply = s.randSupply := rfl
@[simp] theorem State.setRunState_randDraws (s : State) (r : RunState) : (s.setRunState r).randDraws = s.randDraws := rfl
@[simp] theorem State.setRunState_result (s : State) (r : RunState) : (s.setRunState r).result = s.result := rfl

/-! `setMem` -/

@[simp] theorem State.setMem_mem (s : State) (m : Memory) : (s.setMem m).mem = m := rfl
@[simp] theorem State.setMem_v (s : State) (m : Memory) : (s.setMem m).v = s.v := rfl
@[simp] theorem State.setMem_i (s : State) (m : Memory) : (s.setMem m).i = s.i := rfl
@[simp] theorem State.setMem_pc (s : State) (m : Memory) : (s.setMem m).pc = s.pc := rfl
@[simp] theorem State.setMem_stack (s : State) (m : Memory) : (s.setMem m).stack = s.stack := rfl
@[simp] theorem State.setMem_sp (s : State) (m : Memory) : (s.setMem m).sp = s.sp := rfl
@[simp] theorem State.setMem_dt (s : State) (m : Memory) : (s.setMem m).dt = s.dt := rfl
@[simp] theorem State.setMem_st (s : State) (m : Memory) : (s.setMem m).st = s.st := rfl
@[simp] theorem State.setMem_gfx (s : State) (m : Memory) : (s.setMem m).gfx = s.gfx := rfl
@[simp] theorem State.setMem_drawFlag (s : State) (m : Memory) : (s.setMem m).drawFlag = s.drawFlag := rfl
@[simp] theorem State.setMem_runState (s : State) (m : Memory) : (s.setMem m).runState = s.runState := rfl
@[simp] theorem State.setMem_keys (s : State) (m : Memory) : (s.setMem m).keys = s.keys := rfl
@[simp] theorem State.setMem_randSupply (s : State) (m : Memory) : (s.setMem m).randSupply = s.randSupply := rfl
@[simp] theorem State.setMem_randDraws (s : State) (m : Memory) : (s.setMem m).randDraws = s.randDraws := rfl
@[simp] theorem State.setMem_result (s : State) (m : Memory) : (s.setMem m).result = s.result := rfl

/-! `redraw` -/

@[simp] theorem State.redraw_mem (s : State) (g : Gfx) : (s.redraw g).mem = s.mem := rfl
@[simp] theorem State.redraw_v (s : State) (g : Gfx) : (s.redraw g).v = s.v := rfl
@[simp] theorem State.redraw_i (s : State) (g : Gfx) : (s.redraw g).i = s.i := rfl
@[simp] theorem State.redraw_pc (s : State) (g : Gfx) : (s.redraw g).pc = s.pc := rfl
@[simp] theorem State.redraw_stack (s : State) (g : Gfx) : (s.redraw g).stack = s.stack := rfl
@[simp] theorem State.redraw_sp (s : State) (g : Gfx) : (s.redraw g).sp = s.sp := rfl
@[simp] theorem State.redraw_dt (s : State) (g : Gfx) : (s.redraw g).dt = s.dt := rfl
@[simp] theorem State.redraw_st (s : State) (g : Gfx) : (s.redraw g).st = s.st := rfl
@[simp] theorem State.redraw_gfx (s : State) (g : Gfx) : (s.redraw g).gfx = g := rfl
@[simp] theorem State.redraw_drawFlag (s : State) (g : Gfx) : (s.redraw g).drawFlag = true := rfl
@[simp] theorem State.redraw_runState (s : State) (g : Gfx) : (s.redraw g).runState = s.runState := rfl
@[simp] theorem State.redraw_keys (s : State) (g : Gfx) : (s.redraw g).keys = s.keys := rfl
@[simp] theorem State.redraw_randSupply (s : State) (g : Gfx) : (s.redraw g).randSupply = s.randSupply := rfl
@[simp] theorem State.redraw_randDraws (s : State) (g : Gfx) : (s.redraw g).randDraws = s.randDraws := rfl
@[simp] theorem State.redraw_result (s : State) (g : Gfx) : (s.redraw g).result = s.result := rfl

/-! `takeRand` -/

@[simp] theorem State.takeRand_mem (s : State) : (s.takeRand).mem = s.mem := rfl
@[simp] theorem State.takeRand_v (s : State) : (s.takeRand).v = s.v := rfl
@[simp] theorem State.takeRand_i (s : State) : (s.takeRand).i = s.i := rfl
@[simp] theorem State.takeRand_pc (s : State) : (s.takeRand).pc = s.pc := rfl
@[simp] theorem State.takeRand_stack (s : State) : (s.takeRand).stack = s.stack := rfl
@[simp] theorem State.takeRand_sp (s : State) : (s.takeRand).sp = s.sp := rfl
@[simp] theorem State.takeRand_dt (s : State) : (s.takeRand).dt = s.dt := rfl
@[simp] theorem State.takeRand_st (s : State) : (s.takeRand).st = s.st := rfl
@[simp] theorem State.takeRand_gfx (s : State) : (s.takeRand).gfx = s.gfx := rfl
@[simp] theorem State.takeRand_drawFlag (s : State) : (s.takeRand).drawFlag = s.drawFlag := rfl
@[simp] theorem State.takeRand_runState (s : State) : (s.takeRand).runState = s.runState := rfl
@[simp] theorem State.takeRand_keys (s : State) : (s.takeRand).keys = s.keys := rfl
@[simp] theorem State.takeRand_randSupply (s : State) : (s.takeRand).randSupply = s.randSupply.tail := rfl
@[simp] theorem State.takeRand_randDraws (s : State) : (s.takeRand).randDraws = s.randDraws + 1 := rfl
@[simp] theorem State.takeRand_result (s : State) : (s.takeRand).result = s.result := rfl

/-! `raiseFatal` -/

@[simp] theorem raiseFatal_mem (s : State) (e : FatalError) : (raiseFatal e s).mem = s.mem := rfl
@[simp] theorem raiseFatal_v (s : State) (e : FatalError) : (raiseFatal e s).v = s.v := rfl
@[simp] theorem raiseFatal_i (s : State) (e : FatalError) : (raiseFatal e s).i = s.i := rfl
@[simp] theorem raiseFatal_pc (s : State) (e : FatalError) : (raiseFatal e s).pc = s.pc := rfl
@[simp] theorem raiseFatal_stack (s : State) (e : FatalError) : (raiseFatal e s).stack = s.stack := rfl
@[simp] theorem raiseFatal_sp (s : State) (e : FatalError) : (raiseFatal e s).sp = s.sp := rfl
@[simp] theorem raiseFatal_dt (s : State) (e : FatalError) : (raiseFatal e s).dt = s.dt := rfl
@[simp] theorem raiseFatal_st (s : State) (e : FatalError) : (raiseFatal e s).st = s.st := rfl
@[simp] theorem raiseFatal_gfx (s : State) (e : FatalError) : (raiseFatal e s).gfx = s.gfx := rfl
@[simp] theorem raiseFatal_drawFlag (s : State) (e : FatalError) : (raiseFatal e s).drawFlag = s.drawFlag := rfl
@[simp] theorem raiseFatal_runState (s : State) (e : FatalError) : (raiseFatal e s).runState = .halted e := rfl
@[simp] theorem raiseFatal_keys (s : State) (e : FatalError) : (raiseFatal e s).keys = s.keys := rfl
@[simp] theorem raiseFatal_randSupply (s : State) (e : FatalError) : (raiseFatal e s).randSupply = s.randSupply := rfl
@[simp] theorem raiseFatal_randDraws (s : State) (e : FatalError) : (raiseFatal e s).randDraws = s.randDraws := rfl
@[simp] theorem raiseFatal_result (s : State) (e : FatalError) : (raiseFatal e s).result = .err e := rfl

/-! `writeResultThenFlag` -/

@[simp] theorem writeResultThenFlag_mem (s : State) (x : RegIdx) (r : Byte) (f : Bool) : (writeResultThenFlag x r f s).mem = s.mem :=
  rfl
@[simp] theorem writeResultThenFlag_v (s : State) (x : RegIdx) (r : Byte) (f : Bool) : (writeResultThenFlag x r f s).v = (s.v.set x.toNat r).set vf.toNat (flagByte f) :=
  rfl
@[simp] theorem writeResultThenFlag_i (s : State) (x : RegIdx) (r : Byte) (f : Bool) : (writeResultThenFlag x r f s).i = s.i :=
  rfl
@[simp] theorem writeResultThenFlag_pc (s : State) (x : RegIdx) (r : Byte) (f : Bool) : (writeResultThenFlag x r f s).pc = s.pc :=
  rfl
@[simp] theorem writeResultThenFlag_stack (s : State) (x : RegIdx) (r : Byte) (f : Bool) : (writeResultThenFlag x r f s).stack = s.stack :=
  rfl
@[simp] theorem writeResultThenFlag_sp (s : State) (x : RegIdx) (r : Byte) (f : Bool) : (writeResultThenFlag x r f s).sp = s.sp :=
  rfl
@[simp] theorem writeResultThenFlag_dt (s : State) (x : RegIdx) (r : Byte) (f : Bool) : (writeResultThenFlag x r f s).dt = s.dt :=
  rfl
@[simp] theorem writeResultThenFlag_st (s : State) (x : RegIdx) (r : Byte) (f : Bool) : (writeResultThenFlag x r f s).st = s.st :=
  rfl
@[simp] theorem writeResultThenFlag_gfx (s : State) (x : RegIdx) (r : Byte) (f : Bool) : (writeResultThenFlag x r f s).gfx = s.gfx :=
  rfl
@[simp] theorem writeResultThenFlag_drawFlag (s : State) (x : RegIdx) (r : Byte) (f : Bool) : (writeResultThenFlag x r f s).drawFlag = s.drawFlag :=
  rfl
@[simp] theorem writeResultThenFlag_runState (s : State) (x : RegIdx) (r : Byte) (f : Bool) : (writeResultThenFlag x r f s).runState = s.runState :=
  rfl
@[simp] theorem writeResultThenFlag_keys (s : State) (x : RegIdx) (r : Byte) (f : Bool) : (writeResultThenFlag x r f s).keys = s.keys :=
  rfl
@[simp] theorem writeResultThenFlag_randSupply (s : State) (x : RegIdx) (r : Byte) (f : Bool) : (writeResultThenFlag x r f s).randSupply = s.randSupply :=
  rfl
@[simp] theorem writeResultThenFlag_randDraws (s : State) (x : RegIdx) (r : Byte) (f : Bool) : (writeResultThenFlag x r f s).randDraws = s.randDraws :=
  rfl
@[simp] theorem writeResultThenFlag_result (s : State) (x : RegIdx) (r : Byte) (f : Bool) : (writeResultThenFlag x r f s).result = s.result :=
  rfl

/-! `beginStep` -/

@[simp] theorem beginStep_mem (s : State) : (beginStep s).mem = s.mem := rfl
@[simp] theorem beginStep_v (s : State) : (beginStep s).v = s.v := rfl
@[simp] theorem beginStep_i (s : State) : (beginStep s).i = s.i := rfl
@[simp] theorem beginStep_pc (s : State) : (beginStep s).pc = s.pc := rfl
@[simp] theorem beginStep_stack (s : State) : (beginStep s).stack = s.stack := rfl
@[simp] theorem beginStep_sp (s : State) : (beginStep s).sp = s.sp := rfl
@[simp] theorem beginStep_dt (s : State) : (beginStep s).dt = s.dt := rfl
@[simp] theorem beginStep_st (s : State) : (beginStep s).st = s.st := rfl
@[simp] theorem beginStep_gfx (s : State) : (beginStep s).gfx = s.gfx := rfl
@[simp] theorem beginStep_drawFlag (s : State) : (beginStep s).drawFlag = s.drawFlag := rfl
@[simp] theorem beginStep_runState (s : State) : (beginStep s).runState = s.runState := rfl
@[simp] theorem beginStep_keys (s : State) : (beginStep s).keys = s.keys := rfl
@[simp] theorem beginStep_randSupply (s : State) : (beginStep s).randSupply = s.randSupply := rfl
@[simp] theorem beginStep_randDraws (s : State) : (beginStep s).randDraws = s.randDraws := rfl
@[simp] theorem beginStep_result (s : State) : (beginStep s).result = .ok Events.none := rfl

/-! `tick` -/

@[simp] theorem tick_mem (s : State) : (tick s).mem = s.mem := rfl
@[simp] theorem tick_v (s : State) : (tick s).v = s.v := rfl
@[simp] theorem tick_i (s : State) : (tick s).i = s.i := rfl
@[simp] theorem tick_pc (s : State) : (tick s).pc = s.pc := rfl
@[simp] theorem tick_stack (s : State) : (tick s).stack = s.stack := rfl
@[simp] theorem tick_sp (s : State) : (tick s).sp = s.sp := rfl
@[simp] theorem tick_dt (s : State) : (tick s).dt = tickTimer s.dt := rfl
@[simp] theorem tick_st (s : State) : (tick s).st = tickTimer s.st := rfl
@[simp] theorem tick_gfx (s : State) : (tick s).gfx = s.gfx := rfl
@[simp] theorem tick_drawFlag (s : State) : (tick s).drawFlag = s.drawFlag := rfl
@[simp] theorem tick_runState (s : State) : (tick s).runState = s.runState := rfl
@[simp] theorem tick_keys (s : State) : (tick s).keys = s.keys := rfl
@[simp] theorem tick_randSupply (s : State) : (tick s).randSupply = s.randSupply := rfl
@[simp] theorem tick_randDraws (s : State) : (tick s).randDraws = s.randDraws := rfl
@[simp] theorem tick_result (s : State) : (tick s).result = if s.st = 0x01#8 then s.result.withBeep else s.result := rfl

/-! `execUnsupported` -/

@[simp] theorem execUnsupported_mem (s : State) (op : Word) : (execUnsupported op s).mem = s.mem := rfl
@[simp] theorem execUnsupported_v (s : State) (op : Word) : (execUnsupported op s).v = s.v := rfl
@[simp] theorem execUnsupported_i (s : State) (op : Word) : (execUnsupported op s).i = s.i := rfl
@[simp] theorem execUnsupported_pc (s : State) (op : Word) : (execUnsupported op s).pc = s.pc + 2 := rfl
@[simp] theorem execUnsupported_stack (s : State) (op : Word) : (execUnsupported op s).stack = s.stack := rfl
@[simp] theorem execUnsupported_sp (s : State) (op : Word) : (execUnsupported op s).sp = s.sp := rfl
@[simp] theorem execUnsupported_dt (s : State) (op : Word) : (execUnsupported op s).dt = s.dt := rfl
@[simp] theorem execUnsupported_st (s : State) (op : Word) : (execUnsupported op s).st = s.st := rfl
@[simp] theorem execUnsupported_gfx (s : State) (op : Word) : (execUnsupported op s).gfx = s.gfx := rfl
@[simp] theorem execUnsupported_drawFlag (s : State) (op : Word) : (execUnsupported op s).drawFlag = s.drawFlag := rfl
@[simp] theorem execUnsupported_runState (s : State) (op : Word) : (execUnsupported op s).runState = s.runState := rfl
@[simp] theorem execUnsupported_keys (s : State) (op : Word) : (execUnsupported op s).keys = s.keys := rfl
@[simp] theorem execUnsupported_randSupply (s : State) (op : Word) : (execUnsupported op s).randSupply = s.randSupply := rfl
@[simp] theorem execUnsupported_randDraws (s : State) (op : Word) : (execUnsupported op s).randDraws = s.randDraws := rfl
@[simp] theorem execUnsupported_result (s : State) (op : Word) : (execUnsupported op s).result = s.result.withUnsupported ⟨s.pc, op⟩ :=
  rfl

/-! `takeKey` -/

@[simp] theorem takeKey_mem (s : State) (x : RegIdx) (k : Fin 16) : (takeKey x k s).mem = s.mem := rfl
@[simp] theorem takeKey_v (s : State) (x : RegIdx) (k : Fin 16) : (takeKey x k s).v = s.v.set x.toNat (BitVec.ofNat 8 k.val) :=
  rfl
@[simp] theorem takeKey_i (s : State) (x : RegIdx) (k : Fin 16) : (takeKey x k s).i = s.i := rfl
@[simp] theorem takeKey_pc (s : State) (x : RegIdx) (k : Fin 16) : (takeKey x k s).pc = s.pc + 2 := rfl
@[simp] theorem takeKey_stack (s : State) (x : RegIdx) (k : Fin 16) : (takeKey x k s).stack = s.stack := rfl
@[simp] theorem takeKey_sp (s : State) (x : RegIdx) (k : Fin 16) : (takeKey x k s).sp = s.sp := rfl
@[simp] theorem takeKey_dt (s : State) (x : RegIdx) (k : Fin 16) : (takeKey x k s).dt = s.dt := rfl
@[simp] theorem takeKey_st (s : State) (x : RegIdx) (k : Fin 16) : (takeKey x k s).st = s.st := rfl
@[simp] theorem takeKey_gfx (s : State) (x : RegIdx) (k : Fin 16) : (takeKey x k s).gfx = s.gfx := rfl
@[simp] theorem takeKey_drawFlag (s : State) (x : RegIdx) (k : Fin 16) : (takeKey x k s).drawFlag = s.drawFlag := rfl
@[simp] theorem takeKey_runState (s : State) (x : RegIdx) (k : Fin 16) : (takeKey x k s).runState = .running := rfl
@[simp] theorem takeKey_keys (s : State) (x : RegIdx) (k : Fin 16) : (takeKey x k s).keys = s.keys := rfl
@[simp] theorem takeKey_randSupply (s : State) (x : RegIdx) (k : Fin 16) : (takeKey x k s).randSupply = s.randSupply := rfl
@[simp] theorem takeKey_randDraws (s : State) (x : RegIdx) (k : Fin 16) : (takeKey x k s).randDraws = s.randDraws := rfl
@[simp] theorem takeKey_result (s : State) (x : RegIdx) (k : Fin 16) : (takeKey x k s).result = s.result := rfl

/-! `readyToFetch` -/

@[simp] theorem readyToFetch_mem (s : State) : (readyToFetch s).mem = s.mem := rfl
@[simp] theorem readyToFetch_v (s : State) : (readyToFetch s).v = s.v := rfl
@[simp] theorem readyToFetch_i (s : State) : (readyToFetch s).i = s.i := rfl
@[simp] theorem readyToFetch_pc (s : State) : (readyToFetch s).pc = if fetchFaults s then 0x0200#16 else s.pc := rfl
@[simp] theorem readyToFetch_stack (s : State) : (readyToFetch s).stack = s.stack := rfl
@[simp] theorem readyToFetch_sp (s : State) : (readyToFetch s).sp = s.sp := rfl
@[simp] theorem readyToFetch_dt (s : State) : (readyToFetch s).dt = s.dt := rfl
@[simp] theorem readyToFetch_st (s : State) : (readyToFetch s).st = s.st := rfl
@[simp] theorem readyToFetch_gfx (s : State) : (readyToFetch s).gfx = s.gfx := rfl
@[simp] theorem readyToFetch_drawFlag (s : State) : (readyToFetch s).drawFlag = s.drawFlag := rfl
@[simp] theorem readyToFetch_runState (s : State) : (readyToFetch s).runState = .running := rfl
@[simp] theorem readyToFetch_keys (s : State) : (readyToFetch s).keys = s.keys := rfl
@[simp] theorem readyToFetch_randSupply (s : State) : (readyToFetch s).randSupply = s.randSupply := rfl
@[simp] theorem readyToFetch_randDraws (s : State) : (readyToFetch s).randDraws = s.randDraws := rfl
@[simp] theorem readyToFetch_result (s : State) : (readyToFetch s).result = s.result := rfl

/-! `placeWord` -/

@[simp] theorem placeWord_mem (s : State) (op : Word) : (placeWord op s).mem = (s.mem.write s.pc.toNat (bytesOfWord op).1).write (s.pc.toNat + 1) (bytesOfWord op).2 :=
  rfl
@[simp] theorem placeWord_v (s : State) (op : Word) : (placeWord op s).v = s.v := rfl
@[simp] theorem placeWord_i (s : State) (op : Word) : (placeWord op s).i = s.i := rfl
@[simp] theorem placeWord_pc (s : State) (op : Word) : (placeWord op s).pc = s.pc := rfl
@[simp] theorem placeWord_stack (s : State) (op : Word) : (placeWord op s).stack = s.stack := rfl
@[simp] theorem placeWord_sp (s : State) (op : Word) : (placeWord op s).sp = s.sp := rfl
@[simp] theorem placeWord_dt (s : State) (op : Word) : (placeWord op s).dt = s.dt := rfl
@[simp] theorem placeWord_st (s : State) (op : Word) : (placeWord op s).st = s.st := rfl
@[simp] theorem placeWord_gfx (s : State) (op : Word) : (placeWord op s).gfx = s.gfx := rfl
@[simp] theorem placeWord_drawFlag (s : State) (op : Word) : (placeWord op s).drawFlag = s.drawFlag := rfl
@[simp] theorem placeWord_runState (s : State) (op : Word) : (placeWord op s).runState = s.runState := rfl
@[simp] theorem placeWord_keys (s : State) (op : Word) : (placeWord op s).keys = s.keys := rfl
@[simp] theorem placeWord_randSupply (s : State) (op : Word) : (placeWord op s).randSupply = s.randSupply := rfl
@[simp] theorem placeWord_randDraws (s : State) (op : Word) : (placeWord op s).randDraws = s.randDraws := rfl
@[simp] theorem placeWord_result (s : State) (op : Word) : (placeWord op s).result = s.result := rfl

end Sys2Proof.Machine
end

