-- ==== Sys2Proof/Laws/Ops.lean ====
section
/-! SUPPORT. The shared operations: one lemma each that says all it can do. -/

namespace Sys2Proof.Machine

/-! ### Registers -/

/-- A register after a register write. -/
theorem State.reg_setReg (s : State) (x r : RegIdx) (b : Byte) :
    (s.setReg x b).reg r = if r = x then b else s.reg r := by
  simp only [State.reg, State.setReg, Vector.getElem_set]
  by_cases h : r = x
  · subst h; simp
  · have : x.toNat ≠ r.toNat := fun e => h (BitVec.eq_of_toNat_eq e.symm)
    simp [h, this]

@[simp] theorem State.reg_setReg_same (s : State) (x : RegIdx) (b : Byte) : (s.setReg x b).reg x = b := by
  simp [State.reg_setReg]

/-- Registers are read from `v` alone. -/
theorem State.reg_congr {s t : State} (h : t.v = s.v) (r : RegIdx) : t.reg r = s.reg r := by simp [State.reg, h]

@[simp] theorem State.reg_setPc (s : State) (w : Word) (r : RegIdx) : (s.setPc w).reg r = s.reg r := rfl
@[simp] theorem State.reg_advance (s : State) (r : RegIdx) : s.advance.reg r = s.reg r := rfl
@[simp] theorem State.reg_skipIf (s : State) (c : Bool) (r : RegIdx) : (s.skipIf c).reg r = s.reg r := rfl
@[simp] theorem State.reg_setI (s : State) (w : Word) (r : RegIdx) : (s.setI w).reg r = s.reg r := rfl
@[simp] theorem State.reg_setDt (s : State) (b : Byte) (r : RegIdx) : (s.setDt b).reg r = s.reg r := rfl
@[simp] theorem State.reg_setSt (s : State) (b : Byte) (r : RegIdx) : (s.setSt b).reg r = s.reg r := rfl
@[simp] theorem State.reg_setRunState (s : State) (q : RunState) (r : RegIdx) : (s.setRunState q).reg r = s.reg r := rfl
@[simp] theorem State.reg_setMem (s : State) (m : Memory) (r : RegIdx) : (s.setMem m).reg r = s.reg r := rfl
@[simp] theorem State.reg_redraw (s : State) (g : Gfx) (r : RegIdx) : (s.redraw g).reg r = s.reg r := rfl
@[simp] theorem State.reg_takeRand (s : State) (r : RegIdx) : s.takeRand.reg r = s.reg r := rfl
@[simp] theorem reg_raiseFatal (e : FatalError) (s : State) (r : RegIdx) : (raiseFatal e s).reg r = s.reg r := rfl
@[simp] theorem reg_beginStep (s : State) (r : RegIdx) : (beginStep s).reg r = s.reg r := rfl
@[simp] theorem reg_tick (s : State) (r : RegIdx) : (tick s).reg r = s.reg r := rfl

/-- The result, then the flag: VF ends with the flag even when it is the destination (42_alu.md R140). -/
theorem reg_writeResultThenFlag (x r : RegIdx) (b : Byte) (f : Bool) (s : State) :
    (writeResultThenFlag x b f s).reg r = if r = vf then flagByte f else if r = x then b else s.reg r := by
  simp [writeResultThenFlag, State.reg_setReg]

theorem toNat_flagByte (f : Bool) : (flagByte f).toNat = if f then 1 else 0 := by cases f <;> rfl

/-! ### The call stack -/

/-- A push: where the word goes and what happens to sp. -/
theorem State.push?_cases (s : State) (w : Word) :
    (∃ (h : s.sp.val < 16) (t : State), s.push? w = some t ∧
      t = { s with stack := s.stack.set s.sp.val w, sp := ⟨s.sp.val + 1, by omega⟩ }) ∨
    (s.push? w = none ∧ s.sp.val = 16) := by
  unfold State.push?
  split
  · exact .inl ⟨‹_›, _, rfl, rfl⟩
  · exact .inr ⟨rfl, by omega⟩

/-- A pop: which entry it reads and what happens to sp. -/
theorem State.pop?_cases (s : State) :
    (∃ (h : 0 < s.sp.val), s.pop? = some (s.stack[s.sp.val - 1], { s with sp := ⟨s.sp.val - 1, by omega⟩ })) ∨
    (s.pop? = none ∧ s.sp.val = 0) := by
  unfold State.pop?
  split
  · exact .inl ⟨‹_›, rfl⟩
  · exact .inr ⟨rfl, by omega⟩

/-! ### Data accesses -/

/-- Under REJECT, `CheckData` over `base .. base + count` raises exactly when the last address is above 0xFFF, and then names the
lowest address above 0xFFF (20_memory.md R56, 60_exceptions.md R215). -/
theorem checkData_dataAddrs (base count : Nat) :
    checkData .reject (dataAddrs base count) =
      if count = 0 ∨ base + count ≤ 0x1000 then none else some (max base 0x1000) := by
  simp only [checkData, dataAddrs]
  split_ifs with h
  · have : ((List.range count).map (base + ·)).filter (fun a => decide (0xFFF < a)) = [] := by
      rw [List.filter_eq_nil_iff]
      intro a ha
      simp only [List.mem_map, List.mem_range] at ha
      simp only [decide_eq_true_eq]
      omega
    rw [this]; rfl
  · rw [List.min?_eq_some_iff]
    refine ⟨?_, fun b hb => ?_⟩
    · simp only [List.mem_filter, List.mem_map, List.mem_range, decide_eq_true_eq]
      exact ⟨⟨max base 0x1000 - base, by omega, by omega⟩, by omega⟩
    · simp only [List.mem_filter, List.mem_map, List.mem_range, decide_eq_true_eq] at hb
      obtain ⟨⟨k, hk, rfl⟩, h2⟩ := hb
      omega

/-- The shape of every instruction with data accesses: the error entry or the accesses' state. -/
theorem withCheckedData_cases (p : DataOobPolicy) (addrs : List Nat) (ins : Instr) (s t : State) :
    (checkData p addrs = none ∧ withCheckedData p addrs ins s t = .next t) ∨
    ∃ a, checkData p addrs = some a ∧
      withCheckedData p addrs ins s t = .next (raiseFatal (.outOfBoundsAccess s.pc (encode ins) a) s) := by
  unfold withCheckedData
  cases h : checkData p addrs with
  | none => exact .inl ⟨rfl, rfl⟩
  | some a => exact .inr ⟨a, rfl, rfl⟩

/-- Fx65's loop changes registers only. -/
theorem loadRegs_eq (p : DataOobPolicy) (count : Nat) (s : State) :
    loadRegs p count s = { s with v := (loadRegs p count s).v } := by
  unfold loadRegs
  suffices ∀ (l : List Nat) (t : State), { t with v := s.v } = s →
      (l.foldl (fun t k => t.setReg (BitVec.ofNat 4 k) (s.mem.read (dataAddr p (s.i.toNat + k)))) t) =
        { s with v := (l.foldl (fun t k => t.setReg (BitVec.ofNat 4 k) (s.mem.read (dataAddr p (s.i.toNat + k)))) t).v } from
    this _ _ rfl
  intro l
  induction l with
  | nil => intro t h; obtain ⟨⟩ := s; obtain ⟨⟩ := t; simp_all
  | cons k l ih => intro t h; exact ih _ h

/-- Fx65's loop gives the registers below `count` the bytes from I on and leaves the others. -/
theorem reg_loadRegs (p : DataOobPolicy) (count : Nat) (hc : count ≤ 16) (s : State) (r : RegIdx) :
    (loadRegs p count s).reg r =
      if r.toNat < count then s.mem.read (dataAddr p (s.i.toNat + r.toNat)) else s.reg r := by
  unfold loadRegs
  induction count with
  | zero => rfl
  | succ n ih =>
    rw [List.range_succ, List.foldl_append, List.foldl_cons, List.foldl_nil, State.reg_setReg, ih (by omega)]
    have : r = BitVec.ofNat 4 n ↔ r.toNat = n := by
      rw [← BitVec.toNat_inj, BitVec.toNat_ofNat, Nat.mod_eq_of_lt (by omega)]
    by_cases h : r.toNat = n
    · rw [if_pos (this.2 h), if_pos (by omega), h]
    · rw [if_neg (fun e => h (this.1 e))]
      by_cases g : r.toNat < n
      · rw [if_pos g, if_pos (by omega)]
      · rw [if_neg g, if_neg (by omega)]

theorem length_regsUpTo (s : State) (x : RegIdx) : (s.regsUpTo x).length = x.toNat + 1 := by simp [State.regsUpTo]

/-! ### Keys -/

/-- The lowest held key, if any (40_cycle_engine.md R110). -/
theorem State.lowestKey_cases (s : State) :
    (∃ k : Fin 16, s.lowestKey = some k ∧ s.keys[k.val] = true ∧ ∀ j : Fin 16, j.val < k.val → s.keys[j.val] = false) ∨
    (s.lowestKey = none ∧ ∀ k : Fin 16, s.keys[k.val] = false) := by
  cases h : s.lowestKey with
  | none =>
    refine .inr ⟨rfl, fun k => ?_⟩
    have := List.find?_eq_none.1 h k (List.mem_finRange k)
    simpa [State.pressed] using this
  | some k =>
    refine .inl ⟨k, rfl, ?_, fun j hj => ?_⟩
    · simpa [State.pressed] using List.find?_some h
    · obtain ⟨_, as, bs, e, hn⟩ := List.find?_eq_some_iff_append.1 h
      have hmem : j ∈ as := by
        have h1 : (List.finRange 16).Pairwise (· < ·) := List.pairwise_lt_finRange 16
        rw [e, List.pairwise_append] at h1
        have h2 : j ∈ as ++ k :: bs := e ▸ List.mem_finRange j
        rcases List.mem_append.1 h2 with g | g
        · exact g
        · rcases List.mem_cons.1 g with rfl | g
          · omega
          · have := (List.pairwise_cons.1 h1.2.1).1 j g
            exact absurd (Fin.lt_def.1 this) (by omega)
      simpa [State.pressed] using hn j hmem

end Sys2Proof.Machine
end

