-- ==== Sys2Proof/Laws/Cycle.lean ====
section
/-! SUPPORT. The step: what the tick, the end of a step and each kind of step do. -/

namespace Sys2Proof.Machine

/-- A timer's tick as a number: one less, not below 0 (40_cycle_engine.md R108). -/
theorem toNat_tickTimer (b : Byte) : (tickTimer b).toNat = b.toNat - 1 := by
  unfold tickTimer
  split
  · rw [BitVec.toNat_sub_of_le (by simp [BitVec.le_def]; omega)]; rfl
  · omega

/-- A step that did not raise a fatal error ticks; one that did, does not (60_exceptions.md R216). -/
theorem endStep_cases (s : State) :
    (∃ e, s.runState = .halted e ∧ endStep s = s) ∨ ((∀ e, s.runState ≠ .halted e) ∧ endStep s = tick s) := by
  unfold endStep
  cases h : s.runState with
  | halted e => exact .inl ⟨e, rfl, rfl⟩
  | running => exact .inr ⟨by simp, rfl⟩
  | awaitingKey x => exact .inr ⟨by simp, rfl⟩

@[simp] theorem endStep_runState (s : State) : (endStep s).runState = s.runState := by
  rcases endStep_cases s with ⟨e, _, h⟩ | ⟨_, h⟩ <;> rw [h]; rfl

/-- What one step does, by run_state and by the fetched word (40_cycle_engine.md R100). -/
theorem step_cases (s : State) :
    (∃ e, s.runState = .halted e ∧ step s = .next { s with result := .err e }) ∨
    (∃ x, s.runState = .awaitingKey x ∧ step s = .next (tick (pollKey x (beginStep s)))) ∨
    (s.runState = .running ∧ 4096 ≤ s.pc.toNat + 1 ∧ step s = .next (raiseFatal (.outOfBoundsFetch s.pc) s)) ∨
    (∃ i, s.runState = .running ∧ s.pc.toNat + 1 < 4096 ∧ decode (fetchWord s) = .instr i ∧
      step s = finish (exec i (beginStep s))) ∨
    (∃ op, s.runState = .running ∧ s.pc.toNat + 1 < 4096 ∧ decode (fetchWord s) = .unsupported op ∧
      step s = .next (endStep (execUnsupported op (beginStep s)))) := by
  cases h : s.runState with
  | halted e => exact .inl ⟨e, rfl, by simp only [step, h, stepHalted]⟩
  | awaitingKey x => exact .inr (.inl ⟨x, rfl, by simp only [step, h]; rfl⟩)
  | running =>
    simp only [step, h, stepRunning, fetchFaults, decide_eq_true_eq]
    by_cases g : 4096 ≤ s.pc.toNat + 1
    · exact .inr (.inr (.inl ⟨trivial, g, by rw [if_pos g]⟩))
    · rw [if_neg g]
      cases d : decode (fetchWord s) with
      | instr i => exact .inr (.inr (.inr (.inl ⟨i, trivial, by omega, rfl, rfl⟩)))
      | unsupported op => exact .inr (.inr (.inr (.inr ⟨op, trivial, by omega, rfl, rfl⟩)))

/-- The key poll: complete the wait with the lowest held key, or change nothing (40_cycle_engine.md R110). -/
theorem pollKey_cases (x : RegIdx) (s : State) :
    (∃ k : Fin 16, pollKey x s = takeKey x k s ∧ s.keys[k.val] = true ∧ ∀ j : Fin 16, j.val < k.val → s.keys[j.val] = false) ∨
    (pollKey x s = s ∧ ∀ k : Fin 16, s.keys[k.val] = false) := by
  unfold pollKey
  rcases s.lowestKey_cases with ⟨k, h, hk⟩ | ⟨h, hk⟩ <;> rw [h]
  · exact .inl ⟨k, rfl, hk⟩
  · exact .inr ⟨rfl, hk⟩

end Sys2Proof.Machine
end

