-- ==== Sys2Proof/Laws/Exec.lean ====
section
/-! SUPPORT. What `exec` can do to the run sub-state, once for all instructions. -/

namespace Sys2Proof.Machine

/-- What a next state of an instruction with data accesses can be. -/
theorem withCheckedData_next {p : DataOobPolicy} {addrs : List Nat} {ins : Instr} {s t u : State}
    (h : withCheckedData p addrs ins s t = .next u) :
    u = t ∨ ∃ e, (∀ pc, e ≠ .outOfBoundsFetch pc) ∧ u = raiseFatal e s := by
  rcases withCheckedData_cases p addrs ins s t with ⟨_, h'⟩ | ⟨a, _, h'⟩ <;> rw [h'] at h <;> cases h
  · exact .inl rfl
  · exact .inr ⟨_, by simp, rfl⟩

/-- What any instruction can do to run_state and to the step's returned value: raise an error, keep both, or start to wait. -/
theorem exec_run_cases (i : Instr) (s t : State) (h : exec i s = .next t) :
    (MayRaise i ∧ ∃ e, (∀ pc, e ≠ .outOfBoundsFetch pc) ∧ t = raiseFatal e s) ∨
    (t.runState = s.runState ∧ t.result = s.result) ∨
    (∃ x, i = .ldVxK x ∧ t.runState = .awaitingKey x ∧ t.pc = s.pc ∧ t.result = s.result) := by
  cases i
  case ret =>
    change execRet s = _ at h
    unfold execRet at h
    rcases s.pop?_cases with ⟨_, hp⟩ | ⟨hp, _⟩ <;> rw [hp] at h <;> cases h
    · exact .inr (.inl ⟨rfl, rfl⟩)
    · exact .inl ⟨trivial, _, by simp, rfl⟩
  case call a =>
    change execCall a s = _ at h
    unfold execCall at h
    rcases s.push?_cases (s.pc + 2) with ⟨_, u, hp, rfl⟩ | ⟨hp, _⟩ <;> rw [hp] at h <;> cases h
    · exact .inr (.inl ⟨rfl, rfl⟩)
    · exact .inl ⟨trivial, _, by simp, rfl⟩
  case ldVxK x =>
    change execLdVxK x s = _ at h
    unfold execLdVxK at h
    split at h <;> cases h
    · exact .inr (.inl ⟨rfl, rfl⟩)
    · exact .inr (.inr ⟨x, rfl, rfl, rfl, rfl⟩)
  case ldBVx | ldMemVx | drw =>
    rcases withCheckedData_next h with rfl | ⟨e, h1, rfl⟩
    · exact .inr (.inl ⟨rfl, rfl⟩)
    · exact .inl ⟨trivial, e, h1, rfl⟩
  case ldVxMem x =>
    rcases withCheckedData_next h with rfl | ⟨e, h1, rfl⟩
    · right; left; rw [loadRegs_eq]; exact ⟨rfl, rfl⟩
    · exact .inl ⟨trivial, e, h1, rfl⟩
  all_goals (cases h; exact .inr (.inl ⟨rfl, rfl⟩))

end Sys2Proof.Machine
end

