-- ==== Sys2Proof/Laws/Gfx.lean ====
section
/-! SUPPORT. The framebuffer: reading after writing, and what XORing a list of distinct cells does. -/

namespace Sys2Proof.Machine

@[simp] theorem Gfx.get_blank (k : Fin 2048) : Gfx.blank.get k = 0x00#8 := by
  simp only [Gfx.get, Gfx.blank, List.getD_eq_getElem?_getD, List.getElem?_replicate]; split <;> rfl

theorem Gfx.get_set (g : Gfx) (k j : Fin 2048) (v : Byte) : (g.set k v).get j = if j = k then v else g.get j := by
  have hk : k.val < g.cells.length := by rw [g.size]; exact k.isLt
  simp only [Gfx.get, Gfx.set, List.getD_eq_getElem?_getD, List.getElem?_set]
  by_cases h : j = k
  · subst h; simp [hk]
  · have : k.val ≠ j.val := fun e => h (Fin.ext e.symm)
    simp [h, this]

theorem Gfx.ext_get {g h : Gfx} (e : ∀ k, g.get k = h.get k) : g = h := by
  obtain ⟨c, hc⟩ := g; obtain ⟨d, hd⟩ := h
  congr
  refine List.ext_getElem (hc.trans hd.symm) fun n h1 h2 => ?_
  have := e ⟨n, hc ▸ h1⟩
  simpa [Gfx.get, List.getD_eq_getElem?_getD, h1, h2] using this

theorem foldl_xorCell_get (cells : List (Fin 2048)) (acc : Gfx × Bool) (hd : cells.Nodup) (k : Fin 2048) :
    (cells.foldl xorCell acc).1.get k = if k ∈ cells then acc.1.get k ^^^ 0x01#8 else acc.1.get k := by
  induction cells generalizing acc with
  | nil => simp
  | cons c cs ih =>
    rw [List.nodup_cons] at hd
    rw [List.foldl_cons, ih _ hd.2]
    simp only [xorCell, Gfx.get_set, List.mem_cons]
    by_cases h : k = c
    · subst h; simp [hd.1]
    · simp [h]

theorem foldl_xorCell_flag (cells : List (Fin 2048)) (acc : Gfx × Bool) (hd : cells.Nodup) :
    (cells.foldl xorCell acc).2 = true ↔ acc.2 = true ∨ ∃ k ∈ cells, acc.1.get k = 0x01#8 := by
  induction cells generalizing acc with
  | nil => simp
  | cons c cs ih =>
    rw [List.nodup_cons] at hd
    rw [List.foldl_cons, ih _ hd.2]
    have : ∀ k ∈ cs, (xorCell acc c).1.get k = acc.1.get k := by
      intro k hk
      simp only [xorCell, Gfx.get_set]
      rw [if_neg]; rintro rfl; exact hd.1 hk
    simp only [xorCell, Bool.or_eq_true, decide_eq_true_eq, List.mem_cons, exists_eq_or_imp, or_assoc]
    constructor
    · rintro (h | h | ⟨k, hk, h⟩)
      · exact .inl h
      · exact .inr (.inl h)
      · exact .inr (.inr ⟨k, hk, by rw [← this k hk]; exact h⟩)
    · rintro (h | h | ⟨k, hk, h⟩)
      · exact .inl h
      · exact .inr (.inl h)
      · exact .inr (.inr ⟨k, hk, by rw [← this k hk] at h; exact h⟩)

/-- Drawing distinct cells inverts exactly those cells. -/
theorem get_drawCells (g : Gfx) (cells : List (Fin 2048)) (hd : cells.Nodup) (k : Fin 2048) :
    (drawCells g cells).1.get k = if k ∈ cells then g.get k ^^^ 0x01#8 else g.get k :=
  foldl_xorCell_get cells (g, false) hd k

/-- Drawing distinct cells collides exactly when one of them was on. -/
theorem collision_drawCells (g : Gfx) (cells : List (Fin 2048)) (hd : cells.Nodup) :
    (drawCells g cells).2 = true ↔ ∃ k ∈ cells, g.get k = 0x01#8 := by
  have := foldl_xorCell_flag cells (g, false) hd
  simpa [drawCells] using this

/-- Drawing keeps every pixel 0 or 1, whatever the cells. -/
theorem drawCells_binary (g : Gfx) (cells : List (Fin 2048)) (h : ∀ k, g.get k = 0x00#8 ∨ g.get k = 0x01#8) (k : Fin 2048) :
    (drawCells g cells).1.get k = 0x00#8 ∨ (drawCells g cells).1.get k = 0x01#8 := by
  unfold drawCells
  generalize false = f
  induction cells generalizing g f with
  | nil => exact h k
  | cons c cs ih =>
    refine ih _ (fun j => ?_) _
    simp only [Gfx.get_set]
    split
    · rcases h c with e | e <;> simp [e]
    · exact h j

/-! ### The cells of a sprite (44_display.md R181 to R183) -/

/-- The cells of one sprite byte. -/
theorem mem_rowCells (x y : Nat) (b : Byte) (k : Fin 2048) :
    k ∈ rowCells x y b ↔ ∃ c < 8, b.getLsbD (7 - c) = true ∧ k = cellIndex (x + c) y := by
  unfold rowCells spriteBit
  rw [List.mem_map]
  constructor
  · rintro ⟨c, hc, rfl⟩
    exact ⟨c, List.mem_range.1 (List.mem_filter.1 hc).1, (List.mem_filter.1 hc).2, rfl⟩
  · rintro ⟨c, hc, hb, rfl⟩
    exact ⟨c, List.mem_filter.2 ⟨List.mem_range.2 hc, hb⟩, rfl⟩

/-- The cells of a sprite. -/
theorem mem_spriteCells (x y : Nat) (bs : List Byte) (k : Fin 2048) :
    k ∈ spriteCells x y bs ↔ ∃ r, ∃ b, bs[r]? = some b ∧ k ∈ rowCells x (y + r) b := by
  induction bs generalizing y with
  | nil => simp [spriteCells]
  | cons b bs ih =>
    simp only [spriteCells, List.mem_append, ih]
    constructor
    · rintro (h | ⟨r, b', h, h'⟩)
      · exact ⟨0, b, rfl, h⟩
      · exact ⟨r+1, b', h, by rwa [show y + (r+1) = y + 1 + r by omega]⟩
    · rintro ⟨r, b', h, h'⟩
      cases r with
      | zero => left; simp at h; subst h; exact h'
      | succ r => right; exact ⟨r, b', h, by rwa [show y + 1 + r = y + (r+1) by omega]⟩

theorem cellIndex_inj {x y x' y' : Nat} (h : cellIndex x y = cellIndex x' y') :
    x % 64 = x' % 64 ∧ y % 32 = y' % 32 := by
  have := congrArg Fin.val h
  simp only [cellIndex] at this
  omega

theorem nodup_rowCells (x y : Nat) (b : Byte) : (rowCells x y b).Nodup := by
  unfold rowCells
  refine List.Nodup.map_on ?_ ((List.nodup_range).filter _)
  intro c hc d hd h
  have hc := List.mem_range.1 (List.mem_filter.1 hc).1
  have hd := List.mem_range.1 (List.mem_filter.1 hd).1
  have := (cellIndex_inj h).1
  omega

/-- A sprite of at most 32 rows hits no cell twice. -/
theorem nodup_spriteCells (x y : Nat) (bs : List Byte) (h : bs.length ≤ 32) : (spriteCells x y bs).Nodup := by
  induction bs generalizing y with
  | nil => simp [spriteCells]
  | cons b bs ih =>
    simp only [List.length_cons] at h
    rw [spriteCells, List.nodup_append]
    refine ⟨nodup_rowCells _ _ _, ih _ (by omega), ?_⟩
    rintro k hk j hj rfl
    rw [mem_rowCells] at hk
    rw [mem_spriteCells] at hj
    obtain ⟨c, _, _, rfl⟩ := hk
    obtain ⟨r, b', hb, hr⟩ := hj
    rw [mem_rowCells] at hr
    obtain ⟨c', _, _, e⟩ := hr
    have := (cellIndex_inj e).2
    have := (List.getElem?_eq_some_iff.1 hb).1
    omega

end Sys2Proof.Machine
end

