-- ==== Sys2Proof/Laws/Interface.lean ====
section
/-! SUPPORT. Creation and reset for every FONT. -/

namespace Sys2Proof.Machine

theorem wf_loadBytes (bs : List Byte) (m : Memory) (a : Nat) (h : m.wf = true) : (loadBytes m a bs).wf = true := by
  rw [loadBytes_eq_storeBytes]; exact wf_storeBytes _ _ _ _ h

/-- What each address holds after a font is copied into zeroed memory (70_reset_and_hazards.md R241, R242). -/
theorem read_fontMemory (table : Font) (c : Nat) : (fontMemory table).read c = table.toList.getD c 0x00#8 := by
  rw [fontMemory, loadBytes_eq_storeBytes, read_storeBytes _ _ _ _ rfl (by simp), if_pos (Nat.zero_le c), Nat.sub_zero]
  by_cases h : c < 80
  · rw [List.getD_eq_getElem _ _ (by simpa using h), List.getD_eq_getElem _ _ (by simpa using h)]
  · rw [List.getD_eq_default _ _ (by simpa using h), List.getD_eq_default _ _ (by simpa using h)]
    exact List.getD_eq_default _ _ (show fontBytes.length ≤ c by rw [show fontBytes.length = 80 from rfl]; omega)

theorem wf_fontMemory (table : Font) : (fontMemory table).wf = true := wf_loadBytes _ _ _ rfl

/-- The default font needs no listed cell. -/
theorem fontMemory_font : fontMemory font = [] := by decide +kernel

/-- The created machine of the default FONT. -/
theorem created_font : created font = State.reset := by rw [created, fontMemory_font]; rfl

end Sys2Proof.Machine
end

