-- ==== Sys2Proof/Laws/PerInstr.lean ====
section
/-! SUPPORT. One lemma per instruction: its word selects its own row of the opcode table (30_encoding.md R72, R75). -/

namespace Sys2Proof.Laws.EncodesInRow

/-- The word of `i` selects the row of `i`, which is a row of the table. -/
def Statement (i : Instr) : Prop := i.row.selects (encode i) = true ∧ i.row ∈ opcodeTable

/-- A row is selected by a word whose masked bits are the row's. -/
theorem intro_row {i : Instr} (k : Nat) (hk : opcodeTable[k]? = some i.row) (h : encode i &&& i.row.mask = i.row.bits) :
    Statement i := ⟨beq_iff_eq.2 h, List.mem_of_getElem? hk⟩

/-! Operand bits lie outside the mask of their format. -/

theorem addr_masked (bits : Word) (nnn : Address) (h : bits &&& 0xF000#16 = bits) :
    encodeAddr bits nnn &&& 0xF000#16 = bits := by
  rw [encodeAddr, BitVec.and_or_distrib_right, h]
  ext k hk; interval_cases k <;> simp

theorem xbyte_masked (bits : Word) (x : RegIdx) (nn : Byte) (h : bits &&& 0xF000#16 = bits) :
    encodeXByte bits x nn &&& 0xF000#16 = bits := by
  rw [encodeXByte, BitVec.and_or_distrib_right, BitVec.and_or_distrib_right, h]
  ext k hk; interval_cases k <;> simp

theorem xysub_masked (bits : Word) (x y : RegIdx) (h : bits &&& 0xF00F#16 = bits) :
    encodeXYSub bits x y &&& 0xF00F#16 = bits := by
  rw [encodeXYSub, BitVec.and_or_distrib_right, BitVec.and_or_distrib_right, h]
  ext k hk; interval_cases k <;> simp

theorem xyn_masked (bits : Word) (x y : RegIdx) (n : Nibble) (h : bits &&& 0xF000#16 = bits) :
    encodeXYN bits x y n &&& 0xF000#16 = bits := by
  rw [encodeXYN, BitVec.and_or_distrib_right, BitVec.and_or_distrib_right, BitVec.and_or_distrib_right, h]
  ext k hk; interval_cases k <;> simp

theorem xsub_masked (bits : Word) (x : RegIdx) (h : bits &&& 0xF0FF#16 = bits) :
    encodeXSub bits x &&& 0xF0FF#16 = bits := by
  rw [encodeXSub, BitVec.and_or_distrib_right, h]
  ext k hk; interval_cases k <;> simp

/-! One lemma per constructor. -/

theorem cls : Statement .cls := intro_row 0 rfl rfl
theorem ret : Statement .ret := intro_row 1 rfl rfl
theorem jp (nnn : Address) : Statement (.jp nnn) := intro_row 2 rfl (addr_masked _ nnn rfl)
theorem call (nnn : Address) : Statement (.call nnn) := intro_row 3 rfl (addr_masked _ nnn rfl)
theorem seByte (x : RegIdx) (nn : Byte) : Statement (.seByte x nn) := intro_row 4 rfl (xbyte_masked _ x nn rfl)
theorem sneByte (x : RegIdx) (nn : Byte) : Statement (.sneByte x nn) := intro_row 5 rfl (xbyte_masked _ x nn rfl)
theorem seReg (x : RegIdx) (y : RegIdx) : Statement (.seReg x y) := intro_row 6 rfl (xysub_masked _ x y rfl)
theorem ldByte (x : RegIdx) (nn : Byte) : Statement (.ldByte x nn) := intro_row 7 rfl (xbyte_masked _ x nn rfl)
theorem addByte (x : RegIdx) (nn : Byte) : Statement (.addByte x nn) := intro_row 8 rfl (xbyte_masked _ x nn rfl)
theorem ldReg (x : RegIdx) (y : RegIdx) : Statement (.ldReg x y) := intro_row 9 rfl (xysub_masked _ x y rfl)
theorem or (x : RegIdx) (y : RegIdx) : Statement (.or x y) := intro_row 10 rfl (xysub_masked _ x y rfl)
theorem and (x : RegIdx) (y : RegIdx) : Statement (.and x y) := intro_row 11 rfl (xysub_masked _ x y rfl)
theorem xor (x : RegIdx) (y : RegIdx) : Statement (.xor x y) := intro_row 12 rfl (xysub_masked _ x y rfl)
theorem addReg (x : RegIdx) (y : RegIdx) : Statement (.addReg x y) := intro_row 13 rfl (xysub_masked _ x y rfl)
theorem sub (x : RegIdx) (y : RegIdx) : Statement (.sub x y) := intro_row 14 rfl (xysub_masked _ x y rfl)
theorem shr (x : RegIdx) (y : RegIdx) : Statement (.shr x y) := intro_row 15 rfl (xysub_masked _ x y rfl)
theorem subn (x : RegIdx) (y : RegIdx) : Statement (.subn x y) := intro_row 16 rfl (xysub_masked _ x y rfl)
theorem shl (x : RegIdx) (y : RegIdx) : Statement (.shl x y) := intro_row 17 rfl (xysub_masked _ x y rfl)
theorem sneReg (x : RegIdx) (y : RegIdx) : Statement (.sneReg x y) := intro_row 18 rfl (xysub_masked _ x y rfl)
theorem ldI (nnn : Address) : Statement (.ldI nnn) := intro_row 19 rfl (addr_masked _ nnn rfl)
theorem jpV0 (nnn : Address) : Statement (.jpV0 nnn) := intro_row 20 rfl (addr_masked _ nnn rfl)
theorem rnd (x : RegIdx) (nn : Byte) : Statement (.rnd x nn) := intro_row 21 rfl (xbyte_masked _ x nn rfl)
theorem drw (x : RegIdx) (y : RegIdx) (n : Nibble) : Statement (.drw x y n) := intro_row 22 rfl (xyn_masked _ x y n rfl)
theorem skp (x : RegIdx) : Statement (.skp x) := intro_row 23 rfl (xsub_masked _ x rfl)
theorem sknp (x : RegIdx) : Statement (.sknp x) := intro_row 24 rfl (xsub_masked _ x rfl)
theorem ldVxDt (x : RegIdx) : Statement (.ldVxDt x) := intro_row 25 rfl (xsub_masked _ x rfl)
theorem ldVxK (x : RegIdx) : Statement (.ldVxK x) := intro_row 26 rfl (xsub_masked _ x rfl)
theorem ldDtVx (x : RegIdx) : Statement (.ldDtVx x) := intro_row 27 rfl (xsub_masked _ x rfl)
theorem ldStVx (x : RegIdx) : Statement (.ldStVx x) := intro_row 28 rfl (xsub_masked _ x rfl)
theorem addIVx (x : RegIdx) : Statement (.addIVx x) := intro_row 29 rfl (xsub_masked _ x rfl)
theorem ldFVx (x : RegIdx) : Statement (.ldFVx x) := intro_row 30 rfl (xsub_masked _ x rfl)
theorem ldBVx (x : RegIdx) : Statement (.ldBVx x) := intro_row 31 rfl (xsub_masked _ x rfl)
theorem ldMemVx (x : RegIdx) : Statement (.ldMemVx x) := intro_row 32 rfl (xsub_masked _ x rfl)
theorem ldVxMem (x : RegIdx) : Statement (.ldVxMem x) := intro_row 33 rfl (xsub_masked _ x rfl)

end Sys2Proof.Laws.EncodesInRow
end

