-- ==== Sys2Proof/Tests/Slice0.lean ====
section
/-! SUPPORT. The author's tests. Every expected value is transcribed from spec/95_test_vectors.md (the row is named in the
comment) or from the `Encoding:` line of a rule; the witnesses show that the hypotheses of the statements can be met. -/

namespace Sys2Proof.Tests

open Sys2Proof Sys2Proof.Machine

set_option Elab.async false

/-! ### Well-formedness: ill-formed terms are refused -/

/-- 30_encoding.md R77: one ill-formed word of each family that has some. -/
theorem test_illformed_words_refused :
    wellFormedWord 0x0123#16 = false ∧ wellFormedWord 0x5121#16 = false ∧ wellFormedWord 0x8008#16 = false ∧
    wellFormedWord 0x9121#16 = false ∧ wellFormedWord 0xE09F#16 = false ∧ wellFormedWord 0xF0FF#16 = false := by decide

/-- A row whose match bits lie outside its mask is ill formed; the rows of the table are not. -/
theorem test_illformed_row_refused :
    OpcodeRow.wf ⟨"BAD", 0x8010#16, 0xF00F#16⟩ = false ∧ (opcodeTable.all OpcodeRow.wf) = true := by decide

/-- Vector R2: an image of 3585 bytes is ill formed, one of 3584 is not. -/
theorem test_oversized_image_refused :
    wellFormedImage (List.replicate 3585 0x00#8) = false ∧ wellFormedImage (List.replicate 3584 0x00#8) = true := by
  simp only [wellFormedImage, List.length_replicate]; decide

/-! ### Decoding: a word of every constructor, its four nibbles written out from the `Encoding:` lines -/

/-- The word of four nibbles, the most significant first. -/
def word (a b c d : BitVec 4) : Word := a ++ b ++ c ++ d

theorem test_decode_family0 :
    decode (word 0b0000#4 0b0000#4 0b1110#4 0b0000#4) = .instr .cls ∧
    decode (word 0b0000#4 0b0000#4 0b1110#4 0b1110#4) = .instr .ret := by decide

theorem test_decode_addresses :
    decode (word 0b0001#4 0b0010#4 0b0011#4 0b0100#4) = .instr (.jp 0x234#12) ∧
    decode (word 0b0010#4 0b1010#4 0b1011#4 0b1100#4) = .instr (.call 0xABC#12) ∧
    decode (word 0b1010#4 0b0001#4 0b0010#4 0b0011#4) = .instr (.ldI 0x123#12) ∧
    decode (word 0b1011#4 0b0101#4 0b0000#4 0b1111#4) = .instr (.jpV0 0x50F#12) := by decide

theorem test_decode_bytes :
    decode (word 0b0011#4 0b0011#4 0b0100#4 0b0010#4) = .instr (.seByte 0x3#4 0x42#8) ∧
    decode (word 0b0100#4 0b0011#4 0b0100#4 0b0011#4) = .instr (.sneByte 0x3#4 0x43#8) ∧
    decode (word 0b0110#4 0b1111#4 0b0101#4 0b0101#4) = .instr (.ldByte 0xF#4 0x55#8) ∧
    decode (word 0b0111#4 0b0000#4 0b0000#4 0b0001#4) = .instr (.addByte 0x0#4 0x01#8) ∧
    decode (word 0b1100#4 0b0011#4 0b0000#4 0b1111#4) = .instr (.rnd 0x3#4 0x0F#8) := by decide

theorem test_decode_register_pairs :
    decode (word 0b0101#4 0b0001#4 0b0010#4 0b0000#4) = .instr (.seReg 0x1#4 0x2#4) ∧
    decode (word 0b1001#4 0b0001#4 0b0010#4 0b0000#4) = .instr (.sneReg 0x1#4 0x2#4) ∧
    decode (word 0b1101#4 0b0000#4 0b0001#4 0b0101#4) = .instr (.drw 0x0#4 0x1#4 0x5#4) := by decide

theorem test_decode_family8 :
    decode (word 0b1000#4 0b0001#4 0b0010#4 0b0000#4) = .instr (.ldReg 0x1#4 0x2#4) ∧
    decode (word 0b1000#4 0b0001#4 0b0010#4 0b0001#4) = .instr (.or 0x1#4 0x2#4) ∧
    decode (word 0b1000#4 0b0001#4 0b0010#4 0b0010#4) = .instr (.and 0x1#4 0x2#4) ∧
    decode (word 0b1000#4 0b0001#4 0b0010#4 0b0011#4) = .instr (.xor 0x1#4 0x2#4) ∧
    decode (word 0b1000#4 0b0001#4 0b0010#4 0b0100#4) = .instr (.addReg 0x1#4 0x2#4) ∧
    decode (word 0b1000#4 0b0001#4 0b0010#4 0b0101#4) = .instr (.sub 0x1#4 0x2#4) ∧
    decode (word 0b1000#4 0b0001#4 0b0010#4 0b0110#4) = .instr (.shr 0x1#4 0x2#4) ∧
    decode (word 0b1000#4 0b0001#4 0b0010#4 0b0111#4) = .instr (.subn 0x1#4 0x2#4) ∧
    decode (word 0b1000#4 0b0001#4 0b0010#4 0b1110#4) = .instr (.shl 0x1#4 0x2#4) := by decide

theorem test_decode_familyE :
    decode (word 0b1110#4 0b0100#4 0b1001#4 0b1110#4) = .instr (.skp 0x4#4) ∧
    decode (word 0b1110#4 0b0100#4 0b1010#4 0b0001#4) = .instr (.sknp 0x4#4) := by decide

theorem test_decode_familyF :
    decode (word 0b1111#4 0b0111#4 0b0000#4 0b0111#4) = .instr (.ldVxDt 0x7#4) ∧
    decode (word 0b1111#4 0b0111#4 0b0000#4 0b1010#4) = .instr (.ldVxK 0x7#4) ∧
    decode (word 0b1111#4 0b0111#4 0b0001#4 0b0101#4) = .instr (.ldDtVx 0x7#4) ∧
    decode (word 0b1111#4 0b0111#4 0b0001#4 0b1000#4) = .instr (.ldStVx 0x7#4) ∧
    decode (word 0b1111#4 0b0111#4 0b0001#4 0b1110#4) = .instr (.addIVx 0x7#4) ∧
    decode (word 0b1111#4 0b0111#4 0b0010#4 0b1001#4) = .instr (.ldFVx 0x7#4) ∧
    decode (word 0b1111#4 0b0111#4 0b0011#4 0b0011#4) = .instr (.ldBVx 0x7#4) ∧
    decode (word 0b1111#4 0b0111#4 0b0101#4 0b0101#4) = .instr (.ldMemVx 0x7#4) ∧
    decode (word 0b1111#4 0b0111#4 0b0110#4 0b0101#4) = .instr (.ldVxMem 0x7#4) := by decide

/-- Vector E6: these words are unsupported. -/
theorem test_decode_unsupported :
    ([0x8008#16, 0x800F#16, 0x9121#16, 0xE09F#16, 0xF000#16, 0xF0FF#16, 0xFFFF#16, 0x0EEE#16, 0x00E1#16].all
      fun w => decode w = .unsupported w) = true := by decide

/-- The table's numbering has bit 0 as the lowest bit of the word, and the byte at the lower address holds bits 15..8. -/
theorem test_table_word :
    decodeTableWord 16 0x8124 = some (.addReg 0x1#4 0x2#4) ∧
    decodeBytes [0x81#8, 0x24#8, 0x77#8] = some (.instr (.addReg 0x1#4 0x2#4), [0x77#8]) ∧ decodeBytes [0x81#8] = none := by
  decide

/-! ### One step -/

/-- The state after the instruction word `w` is placed where the next step fetches and one step runs. -/
def after (w : Nat) (s : State) : State :=
  match step (s.withFetchWord 16 w) with
  | .next t => t
  | .fault _ => s
  | .refused _ => s

/-- The state after one step of `s` as it is. -/
def stepped (s : State) : State :=
  match step s with
  | .next t => t
  | .fault _ => s
  | .refused _ => s

/-- The reset state with two registers set. -/
def regs (x : RegIdx) (a : Byte) (y : RegIdx) (b : Byte) : State := (State.reset.setReg y b).setReg x a

/-- The reset state with I set, a byte of memory there, and V0 set. -/
def atI (i : Word) (b v0 : Byte) : State := ((State.reset.setI i).setMem (State.reset.mem.write i.toNat b)).setReg 0#4 v0

/-- The reset state with one key held. -/
def held (k : Fin 16) (v0 : Byte) : State := hostPress k (State.reset.setReg 0#4 v0)

/-- The state an instruction answers. -/
def answered (a : Answer) (s : State) : State :=
  match a with
  | .next t => t
  | .fault _ => s
  | .refused _ => s

/-- Vector S5. -/
theorem test_cls : let t := after 0x00E0 { State.reset with gfx := Gfx.blank.set 67 0x01#8 }
    (t.gfx = Gfx.blank ∧ t.drawFlag = true ∧ t.pc = 0x202#16) := by decide +kernel

/-- Vector C2. -/
theorem test_ret : let t := after 0x00EE { State.reset with
      sp := 2, stack := (State.reset.stack.set 0 0x0222#16).set 1 0x0346#16 }
    (t.pc = 0x0346#16 ∧ t.sp = 1 ∧ t.stack[1] = 0x0346#16) := by decide +kernel

/-- Vector C1. -/
theorem test_ret_underflow : let t := after 0x00EE State.reset
    (t.runState = .halted (.stackUnderflow 0x200#16 0x00EE#16) ∧ t.pc = 0x200#16 ∧
      t.result = .err (.stackUnderflow 0x200#16 0x00EE#16)) := by decide +kernel

/-- Vectors C3 and C5. -/
theorem test_jp : (after 0x1200 State.reset).pc = 0x200#16 ∧ (after 0x1001 State.reset).pc = 0x001#16 := by decide +kernel

/-- Vector C7. -/
theorem test_call : let t := after 0x2300 { State.reset with sp := 15 }
    (t.stack[15] = 0x0202#16 ∧ t.sp = 16 ∧ t.pc = 0x0300#16) := by decide +kernel

/-- Vector C8. -/
theorem test_call_overflow : let t := after 0x2300 { State.reset with sp := 16 }
    (t.runState = .halted (.stackOverflow 0x200#16 0x2300#16) ∧ t.sp = 16 ∧ t.pc = 0x200#16) := by decide +kernel

/-- Vector C10. -/
theorem test_se_byte : (after 0x3342 (State.reset.setReg 3#4 0x42#8)).pc = 0x204#16 ∧
    (after 0x3343 (State.reset.setReg 3#4 0x42#8)).pc = 0x202#16 := by decide +kernel

/-- Vector C13. -/
theorem test_sne_byte : (after 0x4342 (State.reset.setReg 3#4 0x42#8)).pc = 0x202#16 ∧
    (after 0x4343 (State.reset.setReg 3#4 0x42#8)).pc = 0x204#16 := by decide +kernel

/-- Vectors C14 and C15. -/
theorem test_se_reg : (after 0x5120 (regs 1#4 3#8 2#4 4#8)).pc = 0x202#16 ∧
    (after 0x5110 (regs 1#4 3#8 2#4 4#8)).pc = 0x204#16 := by decide +kernel

/-- Vectors C16 and C17. -/
theorem test_sne_reg : (after 0x9120 (regs 1#4 3#8 2#4 4#8)).pc = 0x204#16 ∧
    (after 0x9110 (regs 1#4 3#8 2#4 4#8)).pc = 0x202#16 := by decide +kernel

/-- Vectors C19 and C20. -/
theorem test_jp_v0 : (after 0xBFFF (State.reset.setReg 0#4 0xFF#8)).pc = 0x10FE#16 ∧
    (after 0xB500 (regs 0#4 0x10#8 5#4 0x77#8)).pc = 0x510#16 := by decide +kernel

/-- Vector A1. -/
theorem test_ld_byte : (after 0x6F55 State.reset).reg 15#4 = 0x55#8 := by decide +kernel

/-- Vectors A2 and A3. -/
theorem test_add_byte : (after 0x7001 (State.reset.setReg 0#4 0xFF#8)).reg 0#4 = 0x00#8 ∧
    (after 0x7001 (State.reset.setReg 0#4 0xFF#8)).reg 15#4 = 0x00#8 ∧
    (after 0x7FFF (State.reset.setReg 15#4 0x02#8)).reg 15#4 = 0x01#8 := by decide +kernel

/-- Vector A4. -/
theorem test_ld_reg : let t := after 0x8010 (regs 1#4 0xAB#8 15#4 0x09#8)
    (t.reg 0#4 = 0xAB#8 ∧ t.reg 15#4 = 0x09#8) := by decide +kernel

/-- Vector A5. -/
theorem test_or : let t := after 0x8011 ((regs 0#4 0xCC#8 1#4 0xAA#8).setReg 15#4 7#8)
    (t.reg 0#4 = 0xEE#8 ∧ t.reg 15#4 = 7#8) := by decide +kernel

/-- Vector A5. -/
theorem test_and : let t := after 0x8012 ((regs 0#4 0xCC#8 1#4 0xAA#8).setReg 15#4 7#8)
    (t.reg 0#4 = 0x88#8 ∧ t.reg 15#4 = 7#8) := by decide +kernel

/-- Vectors A5 and A6. -/
theorem test_xor : let t := after 0x8013 ((regs 0#4 0xCC#8 1#4 0xAA#8).setReg 15#4 7#8)
    (t.reg 0#4 = 0x66#8 ∧ t.reg 15#4 = 7#8 ∧ (after 0x8003 (State.reset.setReg 0#4 0x5A#8)).reg 0#4 = 0x00#8) := by
  decide +kernel

/-- Vector S1. -/
theorem test_add_reg : let t := after 0x8124 (regs 1#4 250#8 2#4 10#8)
    (t.reg 1#4 = 4#8 ∧ t.reg 15#4 = 1#8 ∧ t.pc = 0x202#16) := by decide +kernel

/-- Vectors A10 and A11: the flag wins when the destination is VF. -/
theorem test_add_reg_vf : (after 0x8F14 (regs 15#4 0x10#8 1#4 0xF5#8)).reg 15#4 = 1#8 ∧
    (after 0x8F14 (regs 15#4 1#8 1#4 2#8)).reg 15#4 = 0#8 := by decide +kernel

/-- Vectors S3 and A13. -/
theorem test_sub : let t := after 0x8125 (regs 1#4 5#8 2#4 10#8)
    let u := after 0x8015 (regs 0#4 0x42#8 1#4 0x42#8)
    (t.reg 1#4 = 251#8 ∧ t.reg 15#4 = 1#8 ∧ u.reg 0#4 = 0#8 ∧ u.reg 15#4 = 0#8) := by decide +kernel

/-- Vectors A16 and A19. -/
theorem test_shr : let t := after 0x8016 (regs 0#4 0x01#8 1#4 0xFF#8)
    (t.reg 0#4 = 0#8 ∧ t.reg 15#4 = 1#8 ∧ (after 0x8F06 (State.reset.setReg 15#4 2#8)).reg 15#4 = 0#8) := by decide +kernel

/-- Vector A18. -/
theorem test_shr_vy : let s := regs 0#4 0xFE#8 1#4 0xFF#8
    let t := answered (execShrWith .vy 0#4 1#4 s) s
    (t.reg 0#4 = 0x7F#8 ∧ t.reg 15#4 = 1#8) := by decide +kernel

/-- Vectors A20 and A22. -/
theorem test_subn : let t := after 0x8017 (regs 0#4 10#8 1#4 5#8)
    let u := after 0x8017 (regs 0#4 7#8 1#4 7#8)
    (t.reg 0#4 = 251#8 ∧ t.reg 15#4 = 1#8 ∧ u.reg 0#4 = 0#8 ∧ u.reg 15#4 = 0#8) := by decide +kernel

/-- Vectors A25 and A26. -/
theorem test_shl : let t := after 0x801E (State.reset.setReg 0#4 0xC1#8)
    (t.reg 0#4 = 0x82#8 ∧ t.reg 15#4 = 1#8 ∧ (after 0x8F0E (State.reset.setReg 15#4 0x40#8)).reg 15#4 = 0#8) := by
  decide +kernel

/-- Vector A27. -/
theorem test_shl_vy : let s := regs 0#4 0x01#8 1#4 0x80#8
    let t := answered (execShlWith .vy 0#4 1#4 s) s
    (t.reg 0#4 = 0x00#8 ∧ t.reg 15#4 = 1#8) := by decide +kernel

/-- Vectors S12 and A29: the byte is drawn whatever the mask. -/
theorem test_rnd : (after 0xC30F (hostSupplyRand [0xA7#8] State.reset)).reg 3#4 = 0x07#8 ∧
    (after 0xC000 (hostSupplyRand [0xFF#8, 0x3C#8] State.reset)).reg 0#4 = 0x00#8 ∧
    (after 0xC000 (hostSupplyRand [0xFF#8, 0x3C#8] State.reset)).randSupply = [0x3C#8] := by decide +kernel

/-- Vectors M1 and M2. -/
theorem test_ld_i : (after 0xA123 (State.reset.setI 0x1234#16)).i = 0x0123#16 ∧ (after 0xAFFF State.reset).i = 0x0FFF#16 := by
  decide +kernel

/-- Vectors M3 and M4. -/
theorem test_add_i_vx : let t := after 0xF01E ((State.reset.setI 0x0FFF#16).setReg 0#4 0xFF#8)
    (t.i = 0x10FE#16 ∧ t.reg 15#4 = 0#8 ∧ (after 0xF01E ((State.reset.setI 0xFFFF#16).setReg 0#4 1#8)).i = 0#16) := by
  decide +kernel

/-- Vector M5. -/
theorem test_ld_f_vx : (after 0xF029 (State.reset.setReg 0#4 0x10#8)).i = 0x0050#16 ∧
    (after 0xF029 (State.reset.setReg 0#4 0xFF#8)).i = 0x04FB#16 := by decide +kernel

/-- Vector M7. -/
theorem test_ld_b_vx : let t := after 0xF033 (atI 0xFFD#16 0#8 123#8)
    (t.mem.read 0xFFD = 1#8 ∧ t.mem.read 0xFFE = 2#8 ∧ t.mem.read 0xFFF = 3#8 ∧ t.i = 0xFFD#16) := by decide +kernel

/-- Vectors M8 and M9. -/
theorem test_ld_b_vx_beyond : let s := atI 0xFFE#16 0#8 123#8
    let t := after 0xF033 s
    let u := answered (execLdBVxWith .clamp 0#4 s) s
    (t.runState = .halted (.outOfBoundsAccess 0x200#16 0xF033#16 0x1000) ∧ t.mem.read 0xFFE = 0#8 ∧ t.pc = 0x200#16 ∧
      u.mem.read 0xFFE = 1#8 ∧ u.mem.read 0xFFF = 3#8 ∧ u.pc = 0x202#16) := by decide +kernel

/-- Vector M11, and V1 stored one above V0. -/
theorem test_ld_mem_vx : let t := after 0xF155 ((atI 0xFFE#16 0#8 0xAA#8).setReg 1#4 0xBB#8)
    ((after 0xF055 (atI 0xFFF#16 0#8 0xAA#8)).mem.read 0xFFF = 0xAA#8 ∧
      t.mem.read 0xFFE = 0xAA#8 ∧ t.mem.read 0xFFF = 0xBB#8 ∧ t.i = 0xFFE#16) := by decide +kernel

/-- Vectors M12 and M13. -/
theorem test_ld_mem_vx_beyond :
    (after 0xF155 (atI 0xFFF#16 0#8 0xAA#8)).runState = .halted (.outOfBoundsAccess 0x200#16 0xF155#16 0x1000) ∧
    (after 0xF155 (atI 0xFFF#16 0#8 0xAA#8)).mem.read 0xFFF = 0#8 ∧
    (after 0xF055 (State.reset.setI 0x2000#16)).runState = .halted (.outOfBoundsAccess 0x200#16 0xF055#16 0x2000) := by
  decide +kernel

/-- Vector M16. -/
theorem test_ld_vx_mem : let t := after 0xF465 State.reset
    (t.reg 0#4 = 0xF0#8 ∧ t.reg 1#4 = 0x90#8 ∧ t.reg 3#4 = 0x90#8 ∧ t.reg 4#4 = 0xF0#8 ∧ t.reg 5#4 = 0#8 ∧ t.i = 0#16) := by
  decide +kernel

/-- Vector M15. -/
theorem test_ld_vx_mem_own_opcode : let t := after 0xF165 (State.reset.setI 0x200#16)
    (t.reg 0#4 = 0xF1#8 ∧ t.reg 1#4 = 0x65#8) := by decide +kernel

/-- Vectors G5 and G7: the wrap of both coordinates. -/
theorem test_drw_wraps : let t := after 0xD011 (atI 0x300#16 0xFF#8 62#8)
    let u := after 0xD012 (((atI 0x300#16 0x80#8 0#8).setMem
      ((State.reset.mem.write 0x300 0x80#8).write 0x301 0x80#8)).setReg 1#4 31#8)
    (t.gfx.get (cellIndex 62 0) = 1#8 ∧ t.gfx.get (cellIndex 5 0) = 1#8 ∧ t.gfx.get (cellIndex 6 0) = 0#8 ∧
      t.gfx.get (cellIndex 61 0) = 0#8 ∧ t.gfx.get (cellIndex 0 1) = 0#8 ∧
      u.gfx.get (cellIndex 0 31) = 1#8 ∧ u.gfx.get (cellIndex 0 0) = 1#8 ∧ u.reg 15#4 = 0#8) := by decide +kernel

/-- Vectors G10 and G11: the coordinate is read before VF is written; the collision. -/
theorem test_drw_flag : let t := after 0xDF01 (((atI 0x300#16 0x80#8 2#8)).setReg 15#4 5#8)
    let u := after 0xD001 { atI 0x300#16 0xC0#8 0#8 with gfx := Gfx.blank.set 1 1#8 }
    (t.gfx.get (cellIndex 5 2) = 1#8 ∧ t.reg 15#4 = 0#8 ∧ t.drawFlag = true ∧
      u.gfx.get (cellIndex 0 0) = 1#8 ∧ u.gfx.get (cellIndex 1 0) = 0#8 ∧ u.reg 15#4 = 1#8) := by decide +kernel

/-- Vectors K1 and K2. -/
theorem test_skp : (after 0xE09E (held 5 5#8)).pc = 0x204#16 ∧ (after 0xE09E (held 4 5#8)).pc = 0x202#16 ∧
    (after 0xE09E (held 5 0x15#8)).pc = 0x202#16 := by decide +kernel

/-- Vectors K3 and K4. -/
theorem test_sknp : (after 0xE0A1 (held 5 0x10#8)).pc = 0x204#16 ∧ (after 0xE0A1 (held 5 5#8)).pc = 0x202#16 := by
  decide +kernel

/-- Vector K6. -/
theorem test_ld_vx_dt : let t := after 0xFF07 (State.reset.setDt 9#8)
    (t.reg 15#4 = 9#8 ∧ t.dt = 8#8) := by decide +kernel

/-- Vector K7. -/
theorem test_ld_vx_k : let t := after 0xF00A (hostPress 10 (held 3 0#8))
    (t.reg 0#4 = 3#8 ∧ t.pc = 0x202#16 ∧ t.runState = .running) := by decide +kernel

/-- Vector K8. -/
theorem test_ld_vx_k_waits : let t := after 0xF00A (State.reset.setDt 2#8)
    (t.runState = .awaitingKey 0#4 ∧ t.pc = 0x200#16 ∧ t.dt = 1#8) := by decide +kernel

/-- Vector K11. -/
theorem test_ld_dt_vx : (after 0xF015 (State.reset.setReg 0#4 0xFF#8)).dt = 0xFE#8 ∧
    (after 0xF015 (State.reset.setReg 0#4 0#8)).dt = 0#8 := by decide +kernel

/-- Vectors K12 and K13. -/
theorem test_ld_st_vx : let t := after 0xF018 (State.reset.setReg 0#4 1#8)
    let u := after 0xF018 (State.reset.setSt 1#8)
    (t.st = 0#8 ∧ outBeep t = true ∧ u.st = 0#8 ∧ outBeep u = false) := by decide +kernel

/-! ### The cycle engine and the host's operations -/

/-- Vector E1: the last fetchable word, and the fetch after it. -/
theorem test_fetch_bound : let t := after 0x00E0 (State.reset.setPc 0xFFE#16)
    (t.pc = 0x1000#16 ∧ t.drawFlag = true ∧ (stepped t).result = .err (.outOfBoundsFetch 0x1000#16)) := by decide +kernel

/-- Vector E2. -/
theorem test_fetch_fault_no_tick : let t := stepped ((State.reset.setPc 0xFFF#16).setDt 5#8)
    (t.runState = .halted (.outOfBoundsFetch 0xFFF#16) ∧ t.dt = 5#8 ∧ t.pc = 0xFFF#16) := by decide +kernel

/-- Vectors E3 and E11. -/
theorem test_unsupported : let t := after 0x0123 ((State.reset.setDt 3#8).setSt 1#8)
    (t.result = .ok ⟨true, some ⟨0x200#16, 0x0123#16⟩⟩ ∧ t.pc = 0x202#16 ∧ t.dt = 2#8 ∧ t.st = 0#8) := by decide +kernel

/-- Vector E7. -/
theorem test_halted : let s := (raiseFatal (.stackUnderflow 0x200#16 0x00EE#16) (State.reset.setDt 4#8))
    ((stepped s).result = .err (.stackUnderflow 0x200#16 0x00EE#16) ∧ (stepped s).dt = 4#8 ∧ (stepped s).pc = 0x200#16) := by
  decide +kernel

/-- Vector E8: an odd pc. -/
theorem test_odd_pc : let t := after 0x607F (State.reset.setPc 0x201#16)
    (t.reg 0#4 = 0x7F#8 ∧ t.pc = 0x203#16) := by decide +kernel

/-- Vectors K9 and K10. -/
theorem test_key_wait : let t := stepped ((State.reset.setSt 1#8).setRunState (.awaitingKey 0#4))
    let u := stepped (((held 15 0#8).setPc 0x300#16).setRunState (.awaitingKey 7#4))
    (t.st = 0#8 ∧ outBeep t = true ∧ t.runState = .awaitingKey 0#4 ∧
      u.reg 7#4 = 0x0F#8 ∧ u.pc = 0x302#16 ∧ u.runState = .running) := by decide +kernel

/-- 70_reset_and_hazards.md R241: the glyphs of 1, 9 and D in the table, at 0x05, 0x2D and 0x41. -/
theorem test_font_bytes :
    (List.range 5).map (fun r => State.reset.mem.read (0x05 + r)) = [0x20#8, 0x60#8, 0x20#8, 0x20#8, 0x70#8] ∧
    (List.range 5).map (fun r => State.reset.mem.read (0x2D + r)) = [0xF0#8, 0x90#8, 0xF0#8, 0x10#8, 0xF0#8] ∧
    (List.range 5).map (fun r => State.reset.mem.read (0x41 + r)) = [0xE0#8, 0x90#8, 0x90#8, 0x90#8, 0xE0#8] := by decide

/-- 70_reset_and_hazards.md R240 to R242: another FONT is in place after creation and after reset. -/
theorem test_other_font : let table : Font := Vector.replicate 80 0xAA#8
    ((created table).mem.read 0 = 0xAA#8 ∧ (created table).mem.read 79 = 0xAA#8 ∧ (created table).mem.read 80 = 0x00#8 ∧
      (hostResetWith table (State.reset.setMem (State.reset.mem.write 79 0#8))).mem.read 79 = 0xAA#8) := by decide +kernel

/-- Vectors R3 and R4. -/
theorem test_reset_and_load :
    let s := raiseFatal (.outOfBoundsFetch 0#16) ((held 4 9#8).setMem (State.reset.mem.write 0 0#8))
    let u := applyHostOp (.load [0xAA#8, 0xBB#8]) ((State.reset.setPc 0x300#16).setRunState (.awaitingKey 2#4))
    ((hostReset s).mem.read 0 = 0xF0#8 ∧ (hostReset s).reg 0#4 = 0#8 ∧ (hostReset s).runState = .running ∧
      (hostReset s).pressed 4 = true ∧
      u.mem.read 0x200 = 0xAA#8 ∧ u.mem.read 0x201 = 0xBB#8 ∧ u.runState = .awaitingKey 2#4 ∧ u.pc = 0x300#16) := by
  decide +kernel

/-! ### Witnesses: for every statement with hypotheses, states and operands that meet them together, at the boundary of every
clause. Each is named after its statement. -/

theorem witness_EncodeGivesBackTheFetchedWord : decode 0x8124#16 = .instr (.addReg 0x1#4 0x2#4) := by decide

theorem witness_DecoderAgreesWithOpcodeTable :
    decode 0x00EE#16 = .instr .ret ∧ (Instr.ret.row ∈ opcodeTable ∧ Instr.ret.row.selects 0x00EE#16 = true) ∧
    decode 0x00EF#16 = .unsupported 0x00EF#16 := by decide

/-- One unsupported word for each disjunct. -/
theorem witness_UnsupportedWordsByFamily :
    ([0x00E1#16, 0x512F#16, 0x801F#16, 0x9001#16, 0xE09D#16, 0xF066#16].all fun w => decode w = .unsupported w) = true := by
  decide

/-- A CLS at the last fetchable pc, which goes on, and a RET at sp = 0, which halts. -/
theorem witness_StepRunsDecodedInstruction :
    (let s := (State.reset.setPc 0xFFE#16).withFetchWord 16 0x00E0
     (s.runState = .running ∧ s.pc.toNat + 1 < 4096 ∧
      decode (s.mem.read s.pc.toNat ++ s.mem.read (s.pc.toNat + 1)) = .instr .cls ∧
      exec .cls { s with result := .ok ⟨false, none⟩ } = .next (answered (exec .cls s) s) ∧
      (answered (exec .cls s) s).runState = .running)) ∧
    (let s := State.reset.withFetchWord 16 0x00EE
     (s.runState = .running ∧ s.pc.toNat + 1 < 4096 ∧
      decode (s.mem.read s.pc.toNat ++ s.mem.read (s.pc.toNat + 1)) = .instr .ret ∧
      exec .ret { s with result := .ok ⟨false, none⟩ } = .next (answered (exec .ret s) s) ∧
      IsHalted (answered (exec .ret s) s))) :=
  ⟨⟨rfl, by decide, by decide, rfl, rfl⟩, ⟨rfl, by decide, by decide, rfl, ⟨_, rfl⟩⟩⟩

/-- From a halted state whose pc is beyond the fetch bound. -/
theorem witness_PlacedWordRunsNext :
    (raiseFatal (.outOfBoundsFetch 0x1000#16) (State.reset.setPc 0x1000#16)).mem.wf = true ∧
    decodeTableWord 16 0x1200 = some (.jp 0x200#12) := by decide

theorem witness_UnsupportedWordIsNoOpStep :
    let s := State.reset.setPc 0xFFE#16
    (s.runState = .running ∧ s.pc.toNat + 1 < 4096 ∧ decode (fetchWord s) = .unsupported 0x0000#16) := by decide

/-- Both clauses at pc = 0xFFF, the lowest pc that cannot be fetched from. -/
theorem witness_FetchBeyondMemoryHalts :
    let s := State.reset.setPc 0xFFF#16
    (s.runState = .running ∧ 0xFFF ≤ s.pc.toNat ∧ (∀ e, s.runState ≠ .halted e) ∧ step s = .next (stepped s) ∧
      (stepped s).runState = .halted (.outOfBoundsFetch 0xFFF#16)) :=
  ⟨rfl, by decide, fun _ h => (by cases h), rfl, rfl⟩

/-- A state that differs from the created one and meets the invariant. -/
theorem inv_at (w : Word) (h : w.toNat ≤ 0x10FE) : Inv (State.reset.setPc w) where
  memory_canonical := rfl
  pixels_binary k := .inl (Gfx.get_blank k)
  pc_bound := h
  stack_bound k := by simp [State.reset]
  waiting_pc _ h := by cases h
  halted_result e := ⟨fun h => (by cases h), fun h => (by cases h)⟩

theorem witness_HaltedStepChangesNothing :
    let e := FatalError.outOfBoundsFetch 0xFFF#16
    let s := raiseFatal e (State.reset.setPc 0xFFF#16)
    (s.runState = .halted e ∧ Inv s) :=
  have h := inv_at 0xFFF#16 (by decide)
  ⟨rfl, h.1, h.2, h.3, h.4, fun _ g => (by cases g), fun e => ⟨fun g => (by cases g; rfl), fun g => (by cases g; rfl)⟩⟩

/-- Key F alone, keys 0 and F together, no key. -/
theorem witness_KeyWaitPollsKeysAndTicks :
    (let s := (held 15 0#8).setRunState (.awaitingKey 7#4)
     (s.runState = .awaitingKey 7#4 ∧ s.keys[15] = true ∧ ∀ j : Fin 16, j.val < 15 → s.keys[j.val] = false)) ∧
    (let s := (hostPress 0 (held 15 0#8)).setRunState (.awaitingKey 7#4)
     (s.runState = .awaitingKey 7#4 ∧ s.keys[0] = true ∧ ∀ j : Fin 16, j.val < 0 → s.keys[j.val] = false)) ∧
    (let s := State.reset.setRunState (.awaitingKey 7#4)
     (s.runState = .awaitingKey 7#4 ∧ ∀ k : Fin 16, s.keys[k.val] = false)) := by decide

/-- The first two steps of the created machine, which fetch the unsupported word 0x0000. -/
theorem reset_not_executing (k : Nat) (hk : k < 2) (i : Instr) : ¬ Executes (Nat.repeat stepped k State.reset) i := by
  have h : ∀ k < 2, decode (fetchWord (Nat.repeat stepped k State.reset)) = .unsupported 0x0000#16 := by decide +kernel
  intro g
  have := h k hk
  rw [g.2.2] at this
  cases this

theorem witness_EveryNonFatalStepTicks :
    step State.reset = .next (stepped State.reset) ∧ ¬ IsHalted (stepped State.reset) ∧
    (¬ ∃ x, Executes State.reset (.ldDtVx x)) ∧ (¬ ∃ x, Executes State.reset (.ldStVx x)) :=
  ⟨rfl, fun ⟨_, h⟩ => (by cases h), fun ⟨x, h⟩ => reset_not_executing 0 (by decide) _ h,
    fun ⟨x, h⟩ => reset_not_executing 0 (by decide) _ h⟩

theorem witness_DelayTimerCountsSteps :
    ∀ k < 2, step (Nat.repeat stepped k State.reset) = .next (Nat.repeat stepped (k + 1) State.reset) ∧
      ¬ IsHalted (Nat.repeat stepped (k + 1) State.reset) ∧
      ¬ ∃ x, Executes (Nat.repeat stepped k State.reset) (.ldDtVx x) := by
  intro k hk
  refine ⟨?_, ?_, fun ⟨x, h⟩ => reset_not_executing k hk _ h⟩ <;> interval_cases k
  · rfl
  · rfl
  · rintro ⟨_, h⟩; cases h
  · rintro ⟨_, h⟩; cases h

/-- pc at the bound of the invariant, where the step halts, and at 0x300, where it goes on. -/
theorem witness_StepKeepsInvariant :
    (Inv (State.reset.setPc 0x10FE#16) ∧ step (State.reset.setPc 0x10FE#16) = .next (stepped (State.reset.setPc 0x10FE#16))) ∧
    (Inv (State.reset.setPc 0x300#16) ∧ step (State.reset.setPc 0x300#16) = .next (stepped (State.reset.setPc 0x300#16))) :=
  ⟨⟨inv_at _ (by decide), rfl⟩, ⟨inv_at _ (by decide), rfl⟩⟩

theorem witness_ReachableStatesMeetInvariant :
    Inv (State.reset.setPc 0x300#16) ∧
    Reachable (Vector.replicate 80 0xAA#8)
      (applyHostOpWith (Vector.replicate 80 0xAA#8) (.press 5) (created (Vector.replicate 80 0xAA#8))) ∧
    Reachable font (stepped (created font)) :=
  ⟨inv_at _ (by decide), .hosted _ .created, .stepped .created (by rw [created_font]; rfl)⟩

theorem witness_FatalErrorsArePrecise :
    let s := State.reset.withFetchWord 16 0x00EE
    (¬ IsHalted s ∧ step s = .next (stepped s) ∧ (stepped s).runState = .halted (.stackUnderflow 0x200#16 0x00EE#16)) :=
  ⟨fun ⟨_, h⟩ => (by cases h), rfl, rfl⟩

theorem witness_OnlySixInstructionsRaise :
    ¬ IsHalted State.reset ∧ exec .ret State.reset = .next (answered (exec .ret State.reset) State.reset) ∧
    IsHalted (answered (exec .ret State.reset) State.reset) :=
  ⟨fun ⟨_, h⟩ => (by cases h), rfl, ⟨_, rfl⟩⟩

/-- An instruction that changes each element. -/
theorem witness_EachStateElementHasItsWriters :
    (∃ t, exec .cls State.reset = .next t ∧ ¬ DisplayKept State.reset t) ∧
    ({ State.reset with drawFlag := true }.drawFlag = true) ∧
    (∃ t, exec (.call 0x300#12) State.reset = .next t ∧ ¬ StackKept State.reset t) ∧
    (∃ t, exec (.ldMemVx 0#4) (State.reset) = .next t ∧ ¬ MemoryKept State.reset t) ∧
    (∃ t, exec (.ldI 0x300#12) State.reset = .next t ∧ ¬ IndexKept State.reset t) ∧
    (∃ t, exec (.ldDtVx 0#4) (State.reset.setDt 1#8) = .next t ∧ t.dt ≠ (State.reset.setDt 1#8).dt) ∧
    (∃ t, exec (.ldStVx 0#4) (State.reset.setSt 1#8) = .next t ∧ t.st ≠ (State.reset.setSt 1#8).st) :=
  ⟨⟨_, rfl, fun h => absurd h.2 (by decide)⟩, rfl, ⟨_, rfl, fun h => absurd h.1 (by decide)⟩,
    ⟨_, rfl, fun h => absurd (h 0) (by decide +kernel)⟩, ⟨_, rfl, fun h => absurd h (by unfold IndexKept; decide)⟩,
    ⟨_, rfl, by decide⟩, ⟨_, rfl, by decide⟩⟩

/-- A register outside the destinations of 8xy4 with x = 1. -/
theorem witness_OnlyDestinationsAndFlagChange :
    (∃ t, exec (.addReg 1#4 2#4) State.reset = .next t) ∧ 2#4 ∉ destRegs (.addReg 1#4 2#4) := ⟨⟨_, rfl⟩, by decide⟩

theorem witness_InputsUsedAsSpecified :
    (∃ t, exec (.rnd 1#4 0xFF#8) State.reset = .next t) ∧
    (∃ t, exec .cls State.reset = .next t ∧ ¬ ∃ x nn, Instr.cls = .rnd x nn) :=
  ⟨⟨_, rfl⟩, _, rfl, fun ⟨_, _, h⟩ => (by cases h)⟩

theorem witness_PcAdvancesByTwoOrFour :
    (∃ t, exec (.skp 0#4) State.reset = .next t ∧ ¬ IsHalted t) ∧
    (∃ t, exec (.ldVxK 0#4) State.reset = .next t ∧ ¬ IsHalted t) ∧ (∃ t, exec .cls State.reset = .next t ∧ ¬ IsHalted t) :=
  ⟨⟨_, rfl, fun ⟨_, h⟩ => (by cases h)⟩, ⟨_, rfl, fun ⟨_, h⟩ => (by cases h)⟩, ⟨_, rfl, fun ⟨_, h⟩ => (by cases h)⟩⟩

/-- Two states that differ in the framebuffer, the draw flag, ST, the returned value and a stack entry not in use; and two that
agree on the framebuffer, for Dxyn. -/
theorem witness_UnreadStateHasNoInfluence :
    let s := State.reset
    let s' := { State.reset with gfx := Gfx.blank.set 0 1#8, drawFlag := true, st := 7#8, result := .ok ⟨true, none⟩, stack := State.reset.stack.set 0 9#16 }
    let s'' := { State.reset with drawFlag := true, st := 7#8 }
    (s.mem.wf = true ∧ s'.mem.wf = true ∧ AgreeOnRead s s' ∧ AgreeOnRead s s'' ∧ s''.gfx = s.gfx ∧ s''.mem.wf = true ∧
      (¬ ∃ x y n, Instr.cls = .drw x y n) ∧
      (∃ t, exec .cls s = .next t) ∧ (∃ t, exec .cls s' = .next t) ∧
      (∃ t, exec (.drw 0#4 0#4 1#4) s = .next t) ∧ (∃ t, exec (.drw 0#4 0#4 1#4) s'' = .next t)) :=
  ⟨rfl, rfl, ⟨fun _ => rfl, fun _ _ => rfl, rfl, rfl, rfl, fun k h => absurd h (by simp [State.reset]), rfl, rfl, rfl, rfl, rfl⟩,
    ⟨fun _ => rfl, fun _ _ => rfl, rfl, rfl, rfl, fun _ _ => rfl, rfl, rfl, rfl, rfl, rfl⟩, rfl, rfl,
    fun ⟨_, _, _, h⟩ => (by cases h), ⟨_, rfl⟩, ⟨_, rfl⟩, ⟨_, rfl⟩, ⟨_, rfl⟩⟩

/-- A self-jump at the entry point and one at the last fetchable address. -/
theorem witness_SelfJumpChangesOnlyTimers :
    SuccessfulEnd (State.reset.withFetchWord 16 0x1200) ∧
    SuccessfulEnd ((State.reset.setPc 0xFFE#16).withFetchWord 16 0x1FFE) :=
  ⟨⟨rfl, by decide, by decide⟩, ⟨rfl, by decide, by decide⟩⟩

/-- The same two bytes written in both orders. -/
theorem witness_CanonicalMemoriesAreEqualData :
    let m := ((State.reset.mem.write 0x300 1#8).write 0xFFF 2#8)
    let m' := ((State.reset.mem.write 0xFFF 2#8).write 0x300 1#8)
    (m.wf = true ∧ m'.wf = true ∧ ∀ a, m.read a = m'.read a) := ⟨rfl, rfl, fun _ => rfl⟩

theorem witness_CallPushesReturnAddress :
    (State.reset.sp.val < 16) ∧ ({ State.reset with sp := 15 }.sp.val < 16) ∧ ({ State.reset with sp := 16 }.sp.val = 16) := by
  decide

theorem witness_ReturnPopsAddress :
    ({ State.reset with sp := 1 }.sp.val = (0 : Fin 16).val + 1) ∧ ({ State.reset with sp := 16 }.sp.val = (15 : Fin 16).val + 1) ∧
    State.reset.sp.val = 0 := by decide

/-- At sp = 15, with the return executed right after the call. -/
theorem witness_CallReturnRoundTrip :
    let s := { State.reset with sp := 15 }
    let t := answered (exec (.call 0x300#12) s) s
    (s.sp.val = (15 : Fin 16).val ∧ exec (.call 0x300#12) s = .next t ∧ t.sp = t.sp ∧ t.stack[15] = t.stack[15]) :=
  ⟨rfl, rfl, rfl, rfl⟩

theorem witness_ByteSkips : State.reset.reg 3#4 = 0x00#8 ∧ State.reset.reg 3#4 ≠ 0x01#8 := by decide

theorem witness_RegisterSkips :
    State.reset.reg 1#4 = State.reset.reg 2#4 ∧ (regs 1#4 3#8 2#4 4#8).reg 1#4 ≠ (regs 1#4 3#8 2#4 4#8).reg 2#4 := by decide

/-- The register next to VF is a destination other than VF: `x ≠ 0xF` of 8xy4 to 8xyE. -/
theorem witness_AddWithCarry : (0xE#4 : RegIdx) ≠ 0xF#4 := by decide
theorem witness_SubtractWithBorrow : (0xE#4 : RegIdx) ≠ 0xF#4 := by decide
theorem witness_ShiftsOfVx : (0xE#4 : RegIdx) ≠ 0xF#4 := by decide
theorem witness_ShiftsOfVy : (0xE#4 : RegIdx) ≠ 0xF#4 := by decide

theorem witness_RandomByteIsMasked :
    (hostSupplyRand [0xA7#8] State.reset).randSupply = 0xA7#8 :: [] ∧ (0x0F#8).getLsbD 4 = false := by decide

theorem witness_DecimalDigitsStored : (State.reset.setI 0xFFD#16).mem.wf = true ∧ (State.reset.setI 0xFFD#16).i.toNat + 2 ≤ 0xFFF := by
  decide

theorem witness_RegistersDumped :
    (State.reset.setI 0xFF0#16).mem.wf = true ∧ (State.reset.setI 0xFF0#16).i.toNat + (0xF#4).toNat ≤ 0xFFF ∧
    (0xF#4).toNat ≤ (0xF#4).toNat := by decide

theorem witness_RegistersLoaded : (State.reset.setI 0xFFF#16).i.toNat + (0x0#4).toNat ≤ 0xFFF := by decide

/-- The lowest I at which each of the four raises, and Dxyn with n = 0. -/
theorem witness_OutOfBoundsAccessRaised :
    0xFFF < (State.reset.setI 0xFFE#16).i.toNat + 2 ∧
    0xFFF < (State.reset.setI 0xFF1#16).i.toNat + (0xF#4).toNat ∧
    (0 < (0xF#4).toNat ∧ 0xFFF < (State.reset.setI 0xFF2#16).i.toNat + (0xF#4).toNat - 1) ∧ (0x0#4).toNat = 0 := by decide

/-- I with both of the first addresses below 0xFFF, I just below 0xFFF, and a register that Fx55 stores below 0xFFF; a pixel under a
set bit of the byte at 0xFFF that Dxyn reads through I = 0xFFFF, on and off, and one beside it. -/
theorem witness_ClampPolicyUsesLastByte :
    (State.reset.mem.wf = true ∧ (State.reset.setI 0xFFD#16).i.toNat + 1 < 0xFFF ∧ (State.reset.setI 0xFFE#16).i.toNat < 0xFFF ∧
      ((0x0#4).toNat ≤ (0x1#4).toNat ∧ (State.reset.setI 0xFFE#16).i.toNat + (0x0#4).toNat < 0xFFF) ∧
      (∀ k < 3, 0xFFE ≠ min ((State.reset.setI 0xFFFF#16).i.toNat + k) 0xFFF) ∧
      (∀ k ≤ (0xF#4).toNat, 0xFFE ≠ min ((State.reset.setI 0xFFFF#16).i.toNat + k) 0xFFF)) ∧
    (let s := { atI 0xFFF#16 0xFF#8 62#8 with i := 0xFFFF#16, gfx := Gfx.blank.set 5 1#8 }
     ((∃ (px : Fin 64) (py : Fin 32),
        SpriteCoversClamped s 0#4 1#4 1#4 px.val py.val ∧ s.gfx.get (cellIndex px.val py.val) = 0x01#8) ∧
      ¬ SpriteCoversClamped s 0#4 1#4 1#4 6 0)) ∧
    (¬ ∃ (px : Fin 64) (py : Fin 32), SpriteCoversClamped State.reset 0#4 1#4 1#4 px.val py.val ∧
      State.reset.gfx.get (cellIndex px.val py.val) = 0x01#8) := by
  refine ⟨by decide, ⟨⟨5, 0, ⟨0, by decide, by decide, 7, by decide, by decide, by decide⟩, by decide⟩, ?_⟩, ?_⟩
  · rintro ⟨r, hr, -, c, hc, -, h⟩
    rw [show (State.reg { atI 0xFFF#16 0xFF#8 62#8 with i := 0xFFFF#16, gfx := Gfx.blank.set 5 1#8 } 0#4).toNat = 62 by decide] at h
    omega
  · rintro ⟨px, py, -, h⟩
    rw [show State.reset.gfx = Gfx.blank from rfl, Gfx.get_blank] at h
    exact absurd h (by decide)

theorem witness_DumpLoadRoundTrip :
    let s := State.reset.setI 0xFF0#16
    let t := answered (exec (.ldMemVx 0xF#4) s) s
    (s.mem.wf = true ∧ s.i.toNat + (0xF#4).toNat ≤ 0xFFF ∧ exec (.ldMemVx 0xF#4) s = .next t ∧ t.i = t.i ∧
      ∀ a, t.mem.read a = t.mem.read a) := ⟨rfl, by decide, rfl, rfl, fun _ => rfl⟩

/-- I one below, at and one above the new pc: every byte of either instruction can be either byte of the fetched word. -/
theorem witness_StoreIsSeenByNextFetch :
    let s := fun i => (State.reset.setPc 0xFFB#16).setI i
    ((s 0xFFD#16).mem.wf = true ∧ (s 0xFFD#16).i.toNat + 2 ≤ 0xFFF ∧ (s 0xFFD#16).i.toNat + (0x2#4).toNat ≤ 0xFFF ∧
      (s 0xFFD#16).i.toNat = ((s 0xFFD#16).pc + 2).toNat ∧ (s 0xFFD#16).i.toNat + 1 = ((s 0xFFD#16).pc + 2).toNat + 1 ∧
      (s 0xFFC#16).i.toNat + 1 = ((s 0xFFC#16).pc + 2).toNat ∧ (s 0xFFC#16).i.toNat + 2 = ((s 0xFFC#16).pc + 2).toNat + 1 ∧
      (s 0xFFB#16).i.toNat + 2 = ((s 0xFFB#16).pc + 2).toNat ∧
      (let u := (State.reset.setPc 0xFFA#16).setI 0xFFD#16
       (u.i.toNat + 2 ≤ 0xFFF ∧ u.i.toNat = (u.pc + 2).toNat + 1)) ∧
      (0x0#4).toNat ≤ (0x2#4).toNat) := by decide

/-- The sprite of one byte 0xFF at the last address of memory, drawn at (62, 0): it covers column 5 and not column 6. -/
theorem witness_SpriteInvertsCoveredPixels :
    let s := atI 0xFFF#16 0xFF#8 62#8
    (s.i.toNat + (1#4).toNat ≤ 0x1000 ∧ (0#4).toNat = 0 ∧ SpriteCovers s 0#4 1#4 1#4 5 0 ∧ ¬ SpriteCovers s 0#4 1#4 1#4 6 0) := by
  refine ⟨by decide, rfl, ⟨0, by decide, by decide, 7, by decide, by decide, by decide⟩, ?_⟩
  rintro ⟨r, hr, -, c, hc, -, h⟩
  have h62 : ((atI 0xFFF#16 0xFF#8 62#8).reg 0#4).toNat = 62 := by decide
  rw [h62] at h
  omega

/-- The same sprite over a pixel that is on, and over an empty screen. -/
theorem witness_CollisionFlag :
    let s := { atI 0xFFF#16 0xFF#8 62#8 with gfx := Gfx.blank.set 5 1#8 }
    ((s.i.toNat + (1#4).toNat ≤ 0x1000) ∧
      (∃ (px : Fin 64) (py : Fin 32), SpriteCovers s 0#4 1#4 1#4 px.val py.val ∧ s.gfx.get (cellIndex px.val py.val) = 0x01#8)) ∧
    (¬ ∃ (px : Fin 64) (py : Fin 32), SpriteCovers State.reset 0#4 1#4 1#4 px.val py.val ∧
      State.reset.gfx.get (cellIndex px.val py.val) = 0x01#8) := by
  refine ⟨⟨by decide, 5, 0, ⟨0, by decide, by decide, 7, by decide, by decide, by decide⟩, by decide⟩, ?_⟩
  rintro ⟨px, py, -, h⟩
  rw [show State.reset.gfx = Gfx.blank from rfl, Gfx.get_blank] at h
  exact absurd h (by decide)

theorem witness_KeySkips :
    ((held 15 15#8).reg 0#4).toNat = (15 : Fin 16).val ∧ (held 15 15#8).keys[15] = true ∧ (held 14 15#8).keys[15] = false ∧
    16 ≤ ((held 15 16#8).reg 0#4).toNat := by decide

theorem witness_DelayTimerRead : Executes (State.reset.withFetchWord 16 0xFF07) (.ldVxDt 0xF#4) := by
  refine ⟨rfl, by decide, by decide⟩

theorem witness_DelayTimerWritten : Executes (State.reset.withFetchWord 16 0xF015) (.ldDtVx 0x0#4) := by
  refine ⟨rfl, by decide, by decide⟩

theorem witness_SoundTimerWritten : Executes (State.reset.withFetchWord 16 0xF018) (.ldStVx 0x0#4) := by
  refine ⟨rfl, by decide, by decide⟩

/-- Key F alone, keys 0 and F together, no key. -/
theorem witness_KeyWaitInstruction :
    ((held 15 0#8).keys[15] = true ∧ ∀ j : Fin 16, j.val < 15 → (held 15 0#8).keys[j.val] = false) ∧
    ((hostPress 0 (held 15 0#8)).keys[0] = true ∧ ∀ j : Fin 16, j.val < 0 → (hostPress 0 (held 15 0#8)).keys[j.val] = false) ∧
    ∀ k : Fin 16, State.reset.keys[k.val] = false := by decide

theorem witness_ResetRestoresCreatedState : 0 < 80 ∧ 79 < 80 ∧ (80 ≤ 80 ∧ 80 < 4096) ∧ (80 ≤ 4095 ∧ 4095 < 4096) := by decide

/-- The digit F with the last row of its glyph, on a machine with another font. -/
theorem witness_FontIsAParameter :
    let s := (created (Vector.replicate 80 0xAA#8)).setReg 0#4 0xF#8
    ((s.reg 0#4).toNat = (15 : Fin 16).val ∧ s.mem = (created (Vector.replicate 80 0xAA#8)).mem) ∧ 79 < 80 ∧ 80 ≤ 80 ∧ 80 < 4096 ∧
      80 ≤ 4095 ∧ 4095 < 4096 :=
  ⟨⟨rfl, rfl⟩, by decide⟩

theorem witness_LoadPlacesProgram :
    State.reset.mem.wf = true ∧ (List.replicate 3584 0xAA#8).length ≤ 3584 ∧ 3583 < (List.replicate 3584 0xAA#8).length ∧
    3584 < (List.replicate 3585 0xAA#8).length := by
  simp only [List.length_replicate]; decide

end Sys2Proof.Tests
end

section
/-! PROOFS. The step of an unsupported word (40_cycle_engine.md R106). -/

namespace Sys2Proof

/-- Each family's handler either names an instruction or hands back the word it was given (30_encoding.md R79). -/
theorem decode_cases (w : Word) : (∃ i, decode w = .instr i) ∨ decode w = .unsupported w := by
  unfold decode
  split
  -- the six families with a second level: 0, 5, 8, 9, E and F
  case h_1 => unfold decodeFamily0; split <;> simp
  case h_6 => unfold decodeFamily5; split <;> simp
  case h_9 => unfold decodeFamily8; split <;> simp
  case h_10 => unfold decodeFamily9; split <;> simp
  case h_15 => unfold decodeFamilyE; split <;> simp
  case h_16 => unfold decodeFamilyF; split <;> simp
  all_goals exact .inl ⟨_, rfl⟩

/-- The word an unsupported answer carries is the decoded word. -/
theorem eq_of_decode_unsupported {w op : Word} (h : decode w = .unsupported op) : op = w := by
  rcases decode_cases w with ⟨i, hi⟩ | hu
  · rw [hi] at h; cases h
  · rw [hu] at h; cases h; rfl

namespace Machine

/-- The end of a step whose execution left the machine Running is the tick. -/
theorem endStep_of_running {s : State} (h : s.runState = .running) : endStep s = tick s := by
  rcases endStep_cases s with ⟨e, he, _⟩ | ⟨_, ht⟩
  · rw [h] at he; cases he
  · exact ht

/-- A Running step inside the fetch bound executes an unsupported word from the state with no event yet, then ticks. -/
theorem step_of_unsupported {s : State} {op : Word} (hrun : s.runState = .running) (hpc : s.pc.toNat + 1 < 4096)
    (hdec : decode (fetchWord s) = .unsupported op) :
    step s = .next (tick (execUnsupported op (beginStep s))) := by
  rcases step_cases s with ⟨e, hr, _⟩ | ⟨x, hr, _⟩ | ⟨_, hb, _⟩ | ⟨i, _, _, hd, _⟩ | ⟨op', _, _, hd, hstep⟩
  · rw [hrun] at hr; cases hr
  · rw [hrun] at hr; cases hr
  · omega
  · rw [hdec] at hd; cases hd
  · rw [hdec] at hd; cases hd
    rw [hstep, endStep_of_running (by simpa using hrun)]

/-- Execute of an unsupported word from a state with no event: the report and pc + 2 are its whole effect. -/
theorem execUnsupported_beginStep (op : Word) (s : State) :
    execUnsupported op (beginStep s) = { s with pc := s.pc + 2, result := .ok ⟨false, some ⟨s.pc, op⟩⟩ } := rfl

/-- Settles O8: the decoder hands back the fetched word, and the step is that word's report, pc + 2 and the tick. -/
theorem unsupportedWordIsNoOpStep : Obligations.UnsupportedWordIsNoOpStep := by
  intro s op hrun hpc hdec
  obtain rfl := eq_of_decode_unsupported hdec
  refine ⟨rfl, ?_⟩
  rw [step_of_unsupported hrun hpc hdec, execUnsupported_beginStep]

end Machine
end Sys2Proof
end

section
/-! PROOFS. The encodings of formats ADDR and XBYTE as numbers (30_encoding.md R72), and the control flow of
41_control_flow.md that only moves pc. -/

namespace Sys2Proof

/-- The `x` field in its place: no bit leaves the word. -/
theorem toNat_regIdx_shifted (x : RegIdx) : (x.setWidth 16 <<< 8).toNat = x.toNat <<< 8 := by
  have hx : x.toNat < 16 := x.isLt
  rw [BitVec.toNat_shiftLeft, BitVec.toNat_setWidth_of_le (by decide), Nat.shiftLeft_eq, Nat.mod_eq_of_lt (by omega)]

theorem toNat_encodeAddr (bits : Word) (nnn : Address) : (encodeAddr bits nnn).toNat = (bits.toNat ||| nnn.toNat) := by
  rw [encodeAddr, BitVec.toNat_or, BitVec.toNat_setWidth_of_le (by decide)]

theorem toNat_encodeXByte (bits : Word) (x : RegIdx) (nn : Byte) :
    (encodeXByte bits x nn).toNat = (bits.toNat ||| x.toNat <<< 8 ||| nn.toNat) := by
  rw [encodeXByte, BitVec.toNat_or, BitVec.toNat_or, toNat_regIdx_shifted, BitVec.toNat_setWidth_of_le (by decide)]

namespace Machine

/-- Zero-extension keeps the address as a number (30_encoding.md R73). -/
theorem toNat_zextAddr (nnn : Address) : (zextAddr nnn).toNat = nnn.toNat := BitVec.toNat_setWidth_of_le (by decide)

/-- The frame of everything that only moves pc. -/
theorem onlyRegsAndPc_setPc (ds : List RegIdx) (s : State) (w : Word) : OnlyRegsAndPc ds s (s.setPc w) :=
  ⟨fun r _ => s.reg_setPc w r, fun _ => rfl, rfl, ⟨rfl, rfl⟩, ⟨rfl, rfl⟩, ⟨rfl, rfl⟩, ⟨rfl, rfl⟩, rfl, rfl, rfl⟩

/-- The frame of the skip primitive (41_control_flow.md R120). -/
theorem onlyRegsAndPc_skipIf (ds : List RegIdx) (s : State) (c : Bool) : OnlyRegsAndPc ds s (s.skipIf c) :=
  onlyRegsAndPc_setPc ds s _

/-- The skip primitive on a condition: which of the two pcs it takes (41_control_flow.md R120). -/
theorem skipIf_decide_pc (s : State) (p : Prop) [Decidable p] :
    (p → (s.skipIf (decide p)).pc = s.pc + 4) ∧ (¬ p → (s.skipIf (decide p)).pc = s.pc + 2) :=
  ⟨fun h => by simp [h], fun h => by simp [h]⟩

theorem exec_jp (nnn : Address) (s : State) : exec (.jp nnn) s = .next (s.setPc (zextAddr nnn)) := rfl

theorem exec_seByte (x : RegIdx) (nn : Byte) (s : State) :
    exec (.seByte x nn) s = .next (s.skipIf (decide (s.reg x = nn))) := rfl

theorem exec_sneByte (x : RegIdx) (nn : Byte) (s : State) :
    exec (.sneByte x nn) s = .next (s.skipIf (decide (s.reg x ≠ nn))) := rfl

/-- Settles O27: the jump is one write of pc. -/
theorem jumpGoesToAddress : Obligations.JumpGoesToAddress := by
  intro s nnn
  refine ⟨toNat_encodeAddr 0x1000#16 nnn, _, exec_jp nnn s, ?_, onlyRegsAndPc_setPc [] s _⟩
  rw [State.setPc_pc, toNat_zextAddr]

/-- Settles O32: both are the skip primitive, on a condition and on its negation. -/
theorem byteSkips : Obligations.ByteSkips := by
  intro s x nn
  refine ⟨toNat_encodeXByte 0x3000#16 x nn, toNat_encodeXByte 0x4000#16 x nn,
    ⟨_, exec_seByte x nn s, onlyRegsAndPc_skipIf [] s _, skipIf_decide_pc s _⟩,
    ⟨_, exec_sneByte x nn s, onlyRegsAndPc_skipIf [] s _, ?_⟩⟩
  obtain ⟨hskip, hnext⟩ := skipIf_decide_pc s (s.reg x ≠ nn)
  exact ⟨hskip, fun h => hnext (not_not_intro h)⟩

end Machine
end Sys2Proof
end

section
/-! PROOFS. The ALU instructions that write one register and no flag (42_alu.md R141 and R142). -/

namespace Sys2Proof.Machine

/-- The frame of one register write followed by pc + 2. -/
theorem onlyRegsAndPc_setReg_advance (s : State) (x : RegIdx) (b : Byte) : OnlyRegsAndPc [x] s (s.setReg x b).advance := by
  refine ⟨fun r hr => ?_, fun _ => rfl, rfl, ⟨rfl, rfl⟩, ⟨rfl, rfl⟩, ⟨rfl, rfl⟩, ⟨rfl, rfl⟩, rfl, rfl, rfl⟩
  rw [State.reg_advance, State.reg_setReg, if_neg (List.ne_of_not_mem_cons hr)]

/-- The whole effect of the shape shared by 6xnn, 7xnn and 8xy0 to 8xy3: the register, pc + 2, and the frame. -/
theorem writeReg_completes (x : RegIdx) (b : Byte) (s : State) :
    ∃ t, writeReg x b s = .next t ∧ t.reg x = b ∧ t.pc = s.pc + 2 ∧ OnlyRegsAndPc [x] s t :=
  ⟨_, rfl, by simp, rfl, onlyRegsAndPc_setReg_advance s x b⟩

theorem exec_ldByte (x : RegIdx) (nn : Byte) (s : State) : exec (.ldByte x nn) s = writeReg x nn s := rfl

theorem exec_addByte (x : RegIdx) (nn : Byte) (s : State) : exec (.addByte x nn) s = writeReg x (s.reg x + nn) s := rfl

/-- Settles O34: both are one register write; the sum of two bytes is taken mod 256. -/
theorem loadAndAddImmediate : Obligations.LoadAndAddImmediate := by
  intro s x nn
  refine ⟨toNat_encodeXByte 0x6000#16 x nn, toNat_encodeXByte 0x7000#16 x nn, ?_, ?_⟩
  · rw [exec_ldByte]
    exact writeReg_completes x nn s
  · rw [exec_addByte]
    obtain ⟨t, hnext, hreg, hframe⟩ := writeReg_completes x (s.reg x + nn) s
    exact ⟨t, hnext, hreg ▸ BitVec.toNat_add _ _, hframe⟩

end Sys2Proof.Machine
end

section
/-! PROOFS. The encoding of format XSUB as a number (30_encoding.md R72), and the instructions that only load I
(43_index_memory.md R160 and R162). -/

namespace Sys2Proof

theorem toNat_encodeXSub (bits : Word) (x : RegIdx) : (encodeXSub bits x).toNat = (bits.toNat ||| x.toNat <<< 8) := by
  rw [encodeXSub, BitVec.toNat_or, toNat_regIdx_shifted]

namespace Machine

/-- Zero-extension keeps the byte as a number (30_encoding.md R73). -/
theorem toNat_zextByte (b : Byte) : (zextByte b).toNat = b.toNat := BitVec.toNat_setWidth_of_le (by decide)

/-- The address of a glyph fits the index register: five times a byte is at most 1275 (43_index_memory.md R162). -/
theorem toNat_zextByte_mul_five (b : Byte) : (zextByte b * 5#16).toNat = b.toNat * 5 := by
  have hb : b.toNat < 256 := b.isLt
  rw [BitVec.toNat_mul, toNat_zextByte, BitVec.toNat_ofNat, Nat.mod_eq_of_lt (by omega)]

/-- Everything but the index register and pc is unchanged: the frame of Annn, Fx1E and Fx29. -/
def OnlyIndexAndPc (s t : State) : Prop :=
  RegsKept [] s t ∧ MemoryKept s t ∧ StackKept s t ∧ TimersKept s t ∧ DisplayKept s t ∧ RunKept s t ∧ KeysKept s t ∧
    RandKept s t

/-- The frame of one write of I followed by pc + 2. -/
theorem onlyIndexAndPc_setI_advance (s : State) (w : Word) : OnlyIndexAndPc s (s.setI w).advance := by
  refine ⟨fun r _ => ?_, fun _ => rfl, ⟨rfl, rfl⟩, ⟨rfl, rfl⟩, ⟨rfl, rfl⟩, ⟨rfl, rfl⟩, rfl, rfl, rfl⟩
  rw [State.reg_advance, State.reg_setI]

/-- The whole effect of the shape shared by Annn, Fx1E and Fx29, with the new I as a number. -/
theorem setI_advance_completes (s : State) {w : Word} {n : Nat} (hw : w.toNat = n) :
    ∃ t, (.next (s.setI w).advance : Answer) = .next t ∧ t.i.toNat = n ∧ t.pc = s.pc + 2 ∧ OnlyIndexAndPc s t :=
  ⟨_, rfl, hw, rfl, onlyIndexAndPc_setI_advance s w⟩

theorem exec_ldI (nnn : Address) (s : State) : exec (.ldI nnn) s = .next (s.setI (zextAddr nnn)).advance := rfl

theorem exec_ldFVx (x : RegIdx) (s : State) :
    exec (.ldFVx x) s = .next (s.setI (zextByte (s.reg x) * 5#16)).advance := rfl

/-- Settles O41: both are one write of I, and neither value loses a bit. -/
theorem indexLoads : Obligations.IndexLoads := by
  intro s nnn x
  refine ⟨toNat_encodeAddr 0xA000#16 nnn, toNat_encodeXSub 0xF029#16 x, ?_, ?_⟩
  · rw [exec_ldI]
    exact setI_advance_completes s (toNat_zextAddr nnn)
  · rw [exec_ldFVx]
    exact setI_advance_completes s (toNat_zextByte_mul_five (s.reg x))

end Machine
end Sys2Proof
end

section
/-! PROOFS. The screen clear (44_display.md R180). -/

namespace Sys2Proof.Machine

/-- Everything but the framebuffer, the draw flag and pc is unchanged: the frame of 00E0. -/
def OnlyDisplayAndPc (s t : State) : Prop :=
  RegsKept [] s t ∧ MemoryKept s t ∧ IndexKept s t ∧ StackKept s t ∧ TimersKept s t ∧ RunKept s t ∧ KeysKept s t ∧
    RandKept s t

/-- The frame of one redraw followed by pc + 2. -/
theorem onlyDisplayAndPc_redraw_advance (s : State) (g : Gfx) : OnlyDisplayAndPc s (s.redraw g).advance := by
  refine ⟨fun r _ => ?_, fun _ => rfl, rfl, ⟨rfl, rfl⟩, ⟨rfl, rfl⟩, ⟨rfl, rfl⟩, rfl, ⟨rfl, rfl⟩⟩
  rw [State.reg_advance, State.reg_redraw]

theorem exec_cls (s : State) : exec .cls s = .next (s.redraw Gfx.blank).advance := rfl

/-- Settles O50: the clear is one redraw with the blank framebuffer, then pc + 2. -/
theorem clearScreen : Obligations.ClearScreen := by
  intro s
  refine ⟨rfl, _, exec_cls s, fun k => ?_, ?_, ?_, onlyDisplayAndPc_redraw_advance s Gfx.blank⟩
  · rw [State.advance_gfx, State.redraw_gfx, Gfx.get_blank]
  · rw [State.advance_drawFlag, State.redraw_drawFlag]
  · rw [State.advance_pc, State.redraw_pc]

end Sys2Proof.Machine
end

section
/-! PROOFS. The delay timer's read and write, and the step around them (45_timers_keys.md R193 and R195). -/

namespace Sys2Proof.Machine

/-- The step of an instruction that leaves the run sub-state as it was: its state, then the tick (40_cycle_engine.md R100). -/
theorem step_of_executes {s t : State} {ins : Instr} (hx : Executes s ins) (hexec : exec ins (beginStep s) = .next t)
    (hkept : t.runState = s.runState) : step s = .next (tick t) := by
  obtain ⟨hrun, hpc, hdec⟩ := hx
  rcases step_cases s with ⟨e, hr, _⟩ | ⟨x, hr, _⟩ | ⟨_, hb, _⟩ | ⟨i, _, _, hd, hstep⟩ | ⟨op, _, _, hd, _⟩
  · rw [hrun] at hr; cases hr
  · rw [hrun] at hr; cases hr
  · omega
  · rw [hdec] at hd; cases hd
    rw [hstep, hexec, finish, endStep_of_running (hkept.trans hrun)]
  · rw [hdec] at hd; cases hd

/-- Everything but the timers and pc is unchanged: the frame of Fx15 and Fx18. -/
def OnlyTimersAndPc (s t : State) : Prop :=
  RegsKept [] s t ∧ MemoryKept s t ∧ IndexKept s t ∧ StackKept s t ∧ DisplayKept s t ∧ RunKept s t ∧ KeysKept s t ∧
    RandKept s t

/-- The frame of one write of DT followed by pc + 2. -/
theorem onlyTimersAndPc_setDt_advance (s : State) (b : Byte) : OnlyTimersAndPc s (s.setDt b).advance := by
  refine ⟨fun r _ => ?_, fun _ => rfl, rfl, ⟨rfl, rfl⟩, ⟨rfl, rfl⟩, ⟨rfl, rfl⟩, rfl, ⟨rfl, rfl⟩⟩
  rw [State.reg_advance, State.reg_setDt]

theorem exec_ldVxDt (x : RegIdx) (s : State) : exec (.ldVxDt x) s = writeReg x s.dt s := rfl

theorem exec_ldDtVx (x : RegIdx) (s : State) : exec (.ldDtVx x) s = .next (s.setDt (s.reg x)).advance := rfl

/-- Settles O54: the read is one register write of DT, which leaves the timers to the tick after it. -/
theorem delayTimerRead : Obligations.DelayTimerRead := by
  intro s x
  refine ⟨toNat_encodeXSub 0xF007#16 x, ?_, fun hx => ?_⟩
  · rw [exec_ldVxDt]
    exact writeReg_completes x s.dt s
  · obtain ⟨t, hexec, hreg, hpc, hframe⟩ := writeReg_completes x s.dt (beginStep s)
    obtain ⟨_, _, _, _, ⟨hdt, _⟩, _, ⟨hrun, _⟩, _⟩ := hframe
    refine ⟨tick t, step_of_executes hx hexec hrun, ?_, ?_, ?_⟩
    · rw [reg_tick, hreg]
    · rw [tick_dt, toNat_tickTimer, hdt, beginStep_dt]
    · rw [tick_pc, hpc, beginStep_pc]

/-- Settles O55: the write is one write of DT, and the tick after it takes the new value one down. -/
theorem delayTimerWritten : Obligations.DelayTimerWritten := by
  intro s x
  refine ⟨toNat_encodeXSub 0xF015#16 x, ?_, fun hx => ?_⟩
  · exact ⟨_, exec_ldDtVx x s, rfl, rfl, rfl, onlyTimersAndPc_setDt_advance s (s.reg x)⟩
  · refine ⟨_, step_of_executes hx (exec_ldDtVx x (beginStep s)) rfl, ?_, rfl⟩
    rw [tick_dt, toNat_tickTimer, State.advance_dt, State.setDt_dt, reg_beginStep]

end Sys2Proof.Machine
end

section
/-! PROOFS. The encoder and the decoder are inverse (30_encoding.md sections 1 to 3). -/

namespace Sys2Proof

/-! ### The fields of a word of each format (30_encoding.md R71, R72): the operand's field holds the operand beside the row's bits -/

section Fields
variable (bits : Word) (x y : RegIdx) (n : Nibble) (nn : Byte) (nnn : Address)

theorem fieldF_encodeAddr : fieldF (encodeAddr bits nnn) = fieldF bits := by
  ext k hk; interval_cases k <;> simp [fieldF, encodeAddr]
theorem fieldNNN_encodeAddr : fieldNNN (encodeAddr bits nnn) = fieldNNN bits ||| nnn := by
  ext k hk; interval_cases k <;> simp [fieldNNN, encodeAddr]

theorem fieldF_encodeXByte : fieldF (encodeXByte bits x nn) = fieldF bits := by
  ext k hk; interval_cases k <;> simp [fieldF, encodeXByte]
theorem fieldX_encodeXByte : fieldX (encodeXByte bits x nn) = fieldX bits ||| x := by
  ext k hk; interval_cases k <;> simp [fieldX, encodeXByte]
theorem fieldNN_encodeXByte : fieldNN (encodeXByte bits x nn) = fieldNN bits ||| nn := by
  ext k hk; interval_cases k <;> simp [fieldNN, encodeXByte]

theorem fieldF_encodeXYSub : fieldF (encodeXYSub bits x y) = fieldF bits := by
  ext k hk; interval_cases k <;> simp [fieldF, encodeXYSub]
theorem fieldX_encodeXYSub : fieldX (encodeXYSub bits x y) = fieldX bits ||| x := by
  ext k hk; interval_cases k <;> simp [fieldX, encodeXYSub]
theorem fieldY_encodeXYSub : fieldY (encodeXYSub bits x y) = fieldY bits ||| y := by
  ext k hk; interval_cases k <;> simp [fieldY, encodeXYSub]
theorem fieldN_encodeXYSub : fieldN (encodeXYSub bits x y) = fieldN bits := by
  ext k hk; interval_cases k <;> simp [fieldN, encodeXYSub]

theorem fieldF_encodeXYN : fieldF (encodeXYN bits x y n) = fieldF bits := by
  ext k hk; interval_cases k <;> simp [fieldF, encodeXYN]
theorem fieldX_encodeXYN : fieldX (encodeXYN bits x y n) = fieldX bits ||| x := by
  ext k hk; interval_cases k <;> simp [fieldX, encodeXYN]
theorem fieldY_encodeXYN : fieldY (encodeXYN bits x y n) = fieldY bits ||| y := by
  ext k hk; interval_cases k <;> simp [fieldY, encodeXYN]
theorem fieldN_encodeXYN : fieldN (encodeXYN bits x y n) = fieldN bits ||| n := by
  ext k hk; interval_cases k <;> simp [fieldN, encodeXYN]

theorem fieldF_encodeXSub : fieldF (encodeXSub bits x) = fieldF bits := by
  ext k hk; interval_cases k <;> simp [fieldF, encodeXSub]
theorem fieldX_encodeXSub : fieldX (encodeXSub bits x) = fieldX bits ||| x := by
  ext k hk; interval_cases k <;> simp [fieldX, encodeXSub]
theorem fieldNN_encodeXSub : fieldNN (encodeXSub bits x) = fieldNN bits := by
  ext k hk; interval_cases k <;> simp [fieldNN, encodeXSub]
end Fields

/-- The dispatch on the family and on the low digits finds the constructor; the operand fields of the row's own bits are 0. -/
theorem decode_encode (i : Instr) : decode (encode i) = .instr i := by
  cases i
  case cls | ret => rfl
  case jp | call | ldI | jpV0 =>
    simp only [encode, decode, fieldF_encodeAddr, fieldNNN_encodeAddr]
    simp [fieldF, fieldNNN]
  case seByte | sneByte | ldByte | addByte | rnd =>
    simp only [encode, decode, fieldF_encodeXByte, fieldX_encodeXByte, fieldNN_encodeXByte]
    simp [fieldF, fieldX, fieldNN]
  case drw =>
    simp only [encode, decode, fieldF_encodeXYN, fieldX_encodeXYN, fieldY_encodeXYN, fieldN_encodeXYN]
    simp [fieldF, fieldX, fieldY, fieldN]
  case seReg | sneReg | ldReg | or | and | xor | addReg | sub | shr | subn | shl =>
    simp only [encode, decode, decodeFamily5, decodeFamily8, decodeFamily9, fieldF_encodeXYSub, fieldX_encodeXYSub,
      fieldY_encodeXYSub, fieldN_encodeXYSub]
    simp [fieldF, fieldX, fieldY, fieldN]
  all_goals
    simp only [encode, decode, decodeFamilyE, decodeFamilyF, fieldF_encodeXSub, fieldX_encodeXSub, fieldNN_encodeXSub]
    simp [fieldF, fieldX, fieldNN]


/-! ### The fields as numbers, and a word from its fields (30_encoding.md R71) -/

theorem toNat_fieldF (w : Word) : (fieldF w).toNat = w.toNat / 4096 := by
  have hw : w.toNat < 65536 := w.isLt
  rw [fieldF, BitVec.extractLsb'_toNat, Nat.shiftRight_eq_div_pow]
  omega

theorem toNat_fieldX (w : Word) : (fieldX w).toNat = w.toNat / 256 % 16 := by
  rw [fieldX, BitVec.extractLsb'_toNat, Nat.shiftRight_eq_div_pow]

theorem toNat_fieldY (w : Word) : (fieldY w).toNat = w.toNat / 16 % 16 := by
  rw [fieldY, BitVec.extractLsb'_toNat, Nat.shiftRight_eq_div_pow]

theorem toNat_fieldN (w : Word) : (fieldN w).toNat = w.toNat % 16 := by
  rw [fieldN, BitVec.extractLsb'_toNat, Nat.shiftRight_zero]

theorem toNat_fieldNN (w : Word) : (fieldNN w).toNat = w.toNat % 256 := by
  rw [fieldNN, BitVec.extractLsb'_toNat, Nat.shiftRight_zero]

theorem toNat_fieldNNN (w : Word) : (fieldNNN w).toNat = w.toNat % 4096 := by
  rw [fieldNNN, BitVec.extractLsb'_toNat, Nat.shiftRight_zero]

theorem word_ext_addr {v w : Word} (hF : fieldF v = fieldF w) (hNNN : fieldNNN v = fieldNNN w) : v = w := by
  have h1 := congrArg BitVec.toNat hF
  have h2 := congrArg BitVec.toNat hNNN
  rw [toNat_fieldF, toNat_fieldF] at h1
  rw [toNat_fieldNNN, toNat_fieldNNN] at h2
  exact BitVec.eq_of_toNat_eq (by omega)

theorem word_ext_xbyte {v w : Word} (hF : fieldF v = fieldF w) (hX : fieldX v = fieldX w) (hNN : fieldNN v = fieldNN w) :
    v = w := by
  have h1 := congrArg BitVec.toNat hX
  have h2 := congrArg BitVec.toNat hNN
  rw [toNat_fieldX, toNat_fieldX] at h1
  rw [toNat_fieldNN, toNat_fieldNN] at h2
  exact word_ext_addr hF (BitVec.eq_of_toNat_eq (by rw [toNat_fieldNNN, toNat_fieldNNN]; omega))

theorem word_ext_xyn {v w : Word} (hF : fieldF v = fieldF w) (hX : fieldX v = fieldX w) (hY : fieldY v = fieldY w)
    (hN : fieldN v = fieldN w) : v = w := by
  have h1 := congrArg BitVec.toNat hY
  have h2 := congrArg BitVec.toNat hN
  rw [toNat_fieldY, toNat_fieldY] at h1
  rw [toNat_fieldN, toNat_fieldN] at h2
  exact word_ext_xbyte hF hX (BitVec.eq_of_toNat_eq (by rw [toNat_fieldNN, toNat_fieldNN]; omega))

section FromFields
variable {bits w : Word} (hF : fieldF w = fieldF bits)
include hF

theorem encodeAddr_fields (hNNN : fieldNNN bits = 0#12) : encodeAddr bits (fieldNNN w) = w :=
  word_ext_addr (by rw [fieldF_encodeAddr, hF]) (by rw [fieldNNN_encodeAddr, hNNN, BitVec.zero_or])

theorem encodeXByte_fields (hX : fieldX bits = 0#4) (hNN : fieldNN bits = 0#8) :
    encodeXByte bits (fieldX w) (fieldNN w) = w :=
  word_ext_xbyte (by rw [fieldF_encodeXByte, hF]) (by rw [fieldX_encodeXByte, hX, BitVec.zero_or])
    (by rw [fieldNN_encodeXByte, hNN, BitVec.zero_or])

theorem encodeXYN_fields (hX : fieldX bits = 0#4) (hY : fieldY bits = 0#4) (hN : fieldN bits = 0#4) :
    encodeXYN bits (fieldX w) (fieldY w) (fieldN w) = w :=
  word_ext_xyn (by rw [fieldF_encodeXYN, hF]) (by rw [fieldX_encodeXYN, hX, BitVec.zero_or])
    (by rw [fieldY_encodeXYN, hY, BitVec.zero_or]) (by rw [fieldN_encodeXYN, hN, BitVec.zero_or])

theorem encodeXYSub_fields (hN : fieldN w = fieldN bits) (hX : fieldX bits = 0#4) (hY : fieldY bits = 0#4) :
    encodeXYSub bits (fieldX w) (fieldY w) = w :=
  word_ext_xyn (by rw [fieldF_encodeXYSub, hF]) (by rw [fieldX_encodeXYSub, hX, BitVec.zero_or])
    (by rw [fieldY_encodeXYSub, hY, BitVec.zero_or]) (by rw [fieldN_encodeXYSub, hN])

theorem encodeXSub_fields (hNN : fieldNN w = fieldNN bits) (hX : fieldX bits = 0#4) : encodeXSub bits (fieldX w) = w :=
  word_ext_xbyte (by rw [fieldF_encodeXSub, hF]) (by rw [fieldX_encodeXSub, hX, BitVec.zero_or])
    (by rw [fieldNN_encodeXSub, hNN])

end FromFields

/-! ### The decoder's answer encodes to the decoded word -/

section SecondLevel
variable {w : Word} {i : Instr}

theorem encode_of_decodeFamily0 (hF : fieldF w = 0x0#4) (h : decodeFamily0 w = .instr i) : encode i = w := by
  unfold decodeFamily0 at h
  split at h <;> cases h
  case h_1 hNNN | h_2 hNNN => exact word_ext_addr hF.symm hNNN.symm

theorem encode_of_decodeFamily5 (hF : fieldF w = 0x5#4) (h : decodeFamily5 w = .instr i) : encode i = w := by
  unfold decodeFamily5 at h
  split at h <;> cases h
  case h_1 hN => exact encodeXYSub_fields hF hN rfl rfl

theorem encode_of_decodeFamily8 (hF : fieldF w = 0x8#4) (h : decodeFamily8 w = .instr i) : encode i = w := by
  unfold decodeFamily8 at h
  split at h <;> cases h
  all_goals exact encodeXYSub_fields hF ‹_› rfl rfl

theorem encode_of_decodeFamily9 (hF : fieldF w = 0x9#4) (h : decodeFamily9 w = .instr i) : encode i = w := by
  unfold decodeFamily9 at h
  split at h <;> cases h
  case h_1 hN => exact encodeXYSub_fields hF hN rfl rfl

theorem encode_of_decodeFamilyE (hF : fieldF w = 0xE#4) (h : decodeFamilyE w = .instr i) : encode i = w := by
  unfold decodeFamilyE at h
  split at h <;> cases h
  all_goals exact encodeXSub_fields hF ‹_› rfl

theorem encode_of_decodeFamilyF (hF : fieldF w = 0xF#4) (h : decodeFamilyF w = .instr i) : encode i = w := by
  unfold decodeFamilyF at h
  split at h <;> cases h
  all_goals exact encodeXSub_fields hF ‹_› rfl

theorem encode_of_decode (h : decode w = .instr i) : encode i = w := by
  unfold decode at h
  split at h
  case h_1 hF => exact encode_of_decodeFamily0 hF h
  case h_6 hF => exact encode_of_decodeFamily5 hF h
  case h_9 hF => exact encode_of_decodeFamily8 hF h
  case h_10 hF => exact encode_of_decodeFamily9 hF h
  case h_15 hF => exact encode_of_decodeFamilyE hF h
  case h_16 =>
    have hF : fieldF w = 0xF#4 := by
      clear h; generalize fieldF w = f at *; decide +revert
    exact encode_of_decodeFamilyF hF h
  case h_14 hF => cases h; exact encodeXYN_fields hF rfl rfl rfl
  case h_2 hF | h_3 hF | h_11 hF | h_12 hF => cases h; exact encodeAddr_fields hF rfl
  all_goals cases h; exact encodeXByte_fields ‹_› rfl rfl

end SecondLevel

/-! ### The opcode table -/

open Laws.EncodesInRow in
/-- Every instruction's word selects its own row, which is in the table (30_encoding.md R75). -/
theorem encode_selects_row : ∀ i : Instr, Statement i
  | .cls => cls
  | .ret => ret
  | .jp nnn => jp nnn
  | .call nnn => call nnn
  | .seByte x nn => seByte x nn
  | .sneByte x nn => sneByte x nn
  | .seReg x y => seReg x y
  | .ldByte x nn => ldByte x nn
  | .addByte x nn => addByte x nn
  | .ldReg x y => ldReg x y
  | .or x y => or x y
  | .and x y => and x y
  | .xor x y => xor x y
  | .addReg x y => addReg x y
  | .sub x y => sub x y
  | .shr x y => shr x y
  | .subn x y => subn x y
  | .shl x y => shl x y
  | .sneReg x y => sneReg x y
  | .ldI nnn => ldI nnn
  | .jpV0 nnn => jpV0 nnn
  | .rnd x nn => rnd x nn
  | .drw x y n => drw x y n
  | .skp x => skp x
  | .sknp x => sknp x
  | .ldVxDt x => ldVxDt x
  | .ldVxK x => ldVxK x
  | .ldDtVx x => ldDtVx x
  | .ldStVx x => ldStVx x
  | .addIVx x => addIVx x
  | .ldFVx x => ldFVx x
  | .ldBVx x => ldBVx x
  | .ldMemVx x => ldMemVx x
  | .ldVxMem x => ldVxMem x

/-! A digit inside a row's mask is the row's own digit. -/

theorem fieldF_of_masked {w m bits : Word} (h : w &&& m = bits) (hm : fieldF m = 0xF#4) : fieldF w = fieldF bits := by
  have hand : fieldF (w &&& m) = fieldF w &&& fieldF m := BitVec.extractLsb'_and
  rw [← h, hand, hm]
  exact BitVec.and_allOnes.symm

theorem fieldN_of_masked {w m bits : Word} (h : w &&& m = bits) (hm : fieldN m = 0xF#4) : fieldN w = fieldN bits := by
  have hand : fieldN (w &&& m) = fieldN w &&& fieldN m := BitVec.extractLsb'_and
  rw [← h, hand, hm]
  exact BitVec.and_allOnes.symm

theorem fieldNN_of_masked {w m bits : Word} (h : w &&& m = bits) (hm : fieldNN m = 0xFF#8) : fieldNN w = fieldNN bits := by
  have hand : fieldNN (w &&& m) = fieldNN w &&& fieldNN m := BitVec.extractLsb'_and
  rw [← h, hand, hm]
  exact BitVec.and_allOnes.symm

/-- A word that selects a row is the word of an instruction of that row, its operands read from the word's fields. -/
theorem exists_instr_of_selects {w : Word} {r : OpcodeRow} (hr : r ∈ opcodeTable) (h : r.selects w = true) :
    ∃ i : Instr, i.row = r ∧ encode i = w := by
  simp only [opcodeTable, opcodeRowsLow, opcodeRowsHigh, List.mem_append, List.mem_cons, List.not_mem_nil, or_false] at hr
  replace h := beq_iff_eq.1 h
  rcases hr with (rfl | rfl | rfl | rfl | rfl | rfl | rfl | rfl | rfl | rfl | rfl | rfl | rfl | rfl | rfl | rfl | rfl | rfl) |
    rfl | rfl | rfl | rfl | rfl | rfl | rfl | rfl | rfl | rfl | rfl | rfl | rfl | rfl | rfl | rfl
  exacts [
    ⟨.cls, rfl, (w.and_allOnes.symm.trans h).symm⟩,
    ⟨.ret, rfl, (w.and_allOnes.symm.trans h).symm⟩,
    ⟨.jp (fieldNNN w), rfl, encodeAddr_fields (fieldF_of_masked h rfl) rfl⟩,
    ⟨.call (fieldNNN w), rfl, encodeAddr_fields (fieldF_of_masked h rfl) rfl⟩,
    ⟨.seByte (fieldX w) (fieldNN w), rfl, encodeXByte_fields (fieldF_of_masked h rfl) rfl rfl⟩,
    ⟨.sneByte (fieldX w) (fieldNN w), rfl, encodeXByte_fields (fieldF_of_masked h rfl) rfl rfl⟩,
    ⟨.seReg (fieldX w) (fieldY w), rfl, encodeXYSub_fields (fieldF_of_masked h rfl) (fieldN_of_masked h rfl) rfl rfl⟩,
    ⟨.ldByte (fieldX w) (fieldNN w), rfl, encodeXByte_fields (fieldF_of_masked h rfl) rfl rfl⟩,
    ⟨.addByte (fieldX w) (fieldNN w), rfl, encodeXByte_fields (fieldF_of_masked h rfl) rfl rfl⟩,
    ⟨.ldReg (fieldX w) (fieldY w), rfl, encodeXYSub_fields (fieldF_of_masked h rfl) (fieldN_of_masked h rfl) rfl rfl⟩,
    ⟨.or (fieldX w) (fieldY w), rfl, encodeXYSub_fields (fieldF_of_masked h rfl) (fieldN_of_masked h rfl) rfl rfl⟩,
    ⟨.and (fieldX w) (fieldY w), rfl, encodeXYSub_fields (fieldF_of_masked h rfl) (fieldN_of_masked h rfl) rfl rfl⟩,
    ⟨.xor (fieldX w) (fieldY w), rfl, encodeXYSub_fields (fieldF_of_masked h rfl) (fieldN_of_masked h rfl) rfl rfl⟩,
    ⟨.addReg (fieldX w) (fieldY w), rfl, encodeXYSub_fields (fieldF_of_masked h rfl) (fieldN_of_masked h rfl) rfl rfl⟩,
    ⟨.sub (fieldX w) (fieldY w), rfl, encodeXYSub_fields (fieldF_of_masked h rfl) (fieldN_of_masked h rfl) rfl rfl⟩,
    ⟨.shr (fieldX w) (fieldY w), rfl, encodeXYSub_fields (fieldF_of_masked h rfl) (fieldN_of_masked h rfl) rfl rfl⟩,
    ⟨.subn (fieldX w) (fieldY w), rfl, encodeXYSub_fields (fieldF_of_masked h rfl) (fieldN_of_masked h rfl) rfl rfl⟩,
    ⟨.shl (fieldX w) (fieldY w), rfl, encodeXYSub_fields (fieldF_of_masked h rfl) (fieldN_of_masked h rfl) rfl rfl⟩,
    ⟨.sneReg (fieldX w) (fieldY w), rfl, encodeXYSub_fields (fieldF_of_masked h rfl) (fieldN_of_masked h rfl) rfl rfl⟩,
    ⟨.ldI (fieldNNN w), rfl, encodeAddr_fields (fieldF_of_masked h rfl) rfl⟩,
    ⟨.jpV0 (fieldNNN w), rfl, encodeAddr_fields (fieldF_of_masked h rfl) rfl⟩,
    ⟨.rnd (fieldX w) (fieldNN w), rfl, encodeXByte_fields (fieldF_of_masked h rfl) rfl rfl⟩,
    ⟨.drw (fieldX w) (fieldY w) (fieldN w), rfl, encodeXYN_fields (fieldF_of_masked h rfl) rfl rfl rfl⟩,
    ⟨.skp (fieldX w), rfl, encodeXSub_fields (fieldF_of_masked h rfl) (fieldNN_of_masked h rfl) rfl⟩,
    ⟨.sknp (fieldX w), rfl, encodeXSub_fields (fieldF_of_masked h rfl) (fieldNN_of_masked h rfl) rfl⟩,
    ⟨.ldVxDt (fieldX w), rfl, encodeXSub_fields (fieldF_of_masked h rfl) (fieldNN_of_masked h rfl) rfl⟩,
    ⟨.ldVxK (fieldX w), rfl, encodeXSub_fields (fieldF_of_masked h rfl) (fieldNN_of_masked h rfl) rfl⟩,
    ⟨.ldDtVx (fieldX w), rfl, encodeXSub_fields (fieldF_of_masked h rfl) (fieldNN_of_masked h rfl) rfl⟩,
    ⟨.ldStVx (fieldX w), rfl, encodeXSub_fields (fieldF_of_masked h rfl) (fieldNN_of_masked h rfl) rfl⟩,
    ⟨.addIVx (fieldX w), rfl, encodeXSub_fields (fieldF_of_masked h rfl) (fieldNN_of_masked h rfl) rfl⟩,
    ⟨.ldFVx (fieldX w), rfl, encodeXSub_fields (fieldF_of_masked h rfl) (fieldNN_of_masked h rfl) rfl⟩,
    ⟨.ldBVx (fieldX w), rfl, encodeXSub_fields (fieldF_of_masked h rfl) (fieldNN_of_masked h rfl) rfl⟩,
    ⟨.ldMemVx (fieldX w), rfl, encodeXSub_fields (fieldF_of_masked h rfl) (fieldNN_of_masked h rfl) rfl⟩,
    ⟨.ldVxMem (fieldX w), rfl, encodeXSub_fields (fieldF_of_masked h rfl) (fieldNN_of_masked h rfl) rfl⟩]

/-- Settles O2: the decoder finds the constructor by the row's digits, and the operands by their fields. -/
theorem decodeEncodeRoundTrip : Obligations.DecodeEncodeRoundTrip := by
  intro i
  obtain ⟨hsel, hrow⟩ := encode_selects_row i
  exact ⟨decode_encode i, List.any_eq_true.2 ⟨i.row, hrow, hsel⟩⟩

/-- Settles O3: the decoder reads every digit of a supported word, and the encoder puts each back. -/
theorem encodeGivesBackTheFetchedWord : Obligations.EncodeGivesBackTheFetchedWord :=
  fun _ _ h => encode_of_decode h

/-- Settles O4: a word that selects a row is the word of an instruction of that row, so it decodes to it. -/
theorem decoderAgreesWithOpcodeTable : Obligations.DecoderAgreesWithOpcodeTable := by
  have hrow : ∀ (w : Word), ∀ r ∈ opcodeTable, r.selects w = true → ∃ i, decode w = .instr i ∧ i.row = r := by
    intro w r hr h
    obtain ⟨i, hi, rfl⟩ := exists_instr_of_selects hr h
    exact ⟨i, decode_encode i, hi⟩
  refine ⟨fun w i h => ?_, hrow, fun w op h => ?_⟩
  · obtain ⟨hsel, hmem⟩ := encode_selects_row i
    exact ⟨hmem, encode_of_decode h ▸ hsel⟩
  · obtain rfl := eq_of_decode_unsupported h
    refine ⟨rfl, fun r hr => Bool.eq_false_iff.2 fun hsel => ?_⟩
    obtain ⟨i, hi, _⟩ := hrow op r hr hsel
    rw [h] at hi
    cases hi

/-! ### The unsupported words (30_encoding.md section 4) -/

theorem decodeFamily0_unsupported_iff (w : Word) :
    decodeFamily0 w = .unsupported w ↔ fieldNNN w ≠ 0x0E0#12 ∧ fieldNNN w ≠ 0x0EE#12 := by
  unfold decodeFamily0
  split <;> simp_all

theorem decodeFamily5_unsupported_iff (w : Word) : decodeFamily5 w = .unsupported w ↔ fieldN w ≠ 0x0#4 := by
  unfold decodeFamily5
  split <;> simp_all

theorem decodeFamily8_unsupported_iff (w : Word) :
    decodeFamily8 w = .unsupported w ↔ fieldN w ∉ [0x0#4, 0x1#4, 0x2#4, 0x3#4, 0x4#4, 0x5#4, 0x6#4, 0x7#4, 0xE#4] := by
  unfold decodeFamily8
  split <;> simp_all

theorem decodeFamily9_unsupported_iff (w : Word) : decodeFamily9 w = .unsupported w ↔ fieldN w ≠ 0x0#4 := by
  unfold decodeFamily9
  split <;> simp_all

theorem decodeFamilyE_unsupported_iff (w : Word) :
    decodeFamilyE w = .unsupported w ↔ fieldNN w ∉ [0x9E#8, 0xA1#8] := by
  unfold decodeFamilyE
  split <;> simp_all

theorem decodeFamilyF_unsupported_iff (w : Word) :
    decodeFamilyF w = .unsupported w ↔
      fieldNN w ∉ [0x07#8, 0x0A#8, 0x15#8, 0x18#8, 0x1E#8, 0x29#8, 0x33#8, 0x55#8, 0x65#8] := by
  unfold decodeFamilyF
  split <;> simp_all

/-- Settles O5: a family without a second level rejects nothing, and each of the other six rejects the words whose low digits
its handler does not list. -/
theorem unsupportedWordsByFamily : Obligations.UnsupportedWordsByFamily := by
  intro w
  rw [← toNat_fieldF, ← toNat_fieldN, ← toNat_fieldNN]
  unfold decode
  split
  case h_1 hF =>
    have hword (v : Word) (hv : fieldF v = 0x0#4) : w = v ↔ fieldNNN w = fieldNNN v :=
      ⟨fun h => h ▸ rfl, word_ext_addr (hF.trans hv.symm)⟩
    rw [decodeFamily0_unsupported_iff, hF, ne_eq w, ne_eq w, hword 0x00E0#16 rfl, hword 0x00EE#16 rfl]
    simp [fieldNNN]
  case h_6 hF =>
    rw [decodeFamily5_unsupported_iff, hF]
    simp [← BitVec.toNat_inj]
  case h_9 hF =>
    rw [decodeFamily8_unsupported_iff, hF]
    simp [← BitVec.toNat_inj]
    omega
  case h_10 hF =>
    rw [decodeFamily9_unsupported_iff, hF]
    simp [← BitVec.toNat_inj]
  case h_15 hF =>
    rw [decodeFamilyE_unsupported_iff, hF]
    simp [← BitVec.toNat_inj]
  case h_16 =>
    have hF : fieldF w = 0xF#4 := by
      generalize fieldF w = f at *; decide +revert
    rw [decodeFamilyF_unsupported_iff, hF]
    simp [← BitVec.toNat_inj]
  all_goals simp [‹fieldF w = _›]

end Sys2Proof
end

section
/-! PROOFS. What one instruction can do to each element of the state (10_state.md sections 2 to 5): it raises its error and
changes nothing else, or it completes. -/

namespace Sys2Proof.Machine

/-! ### Instructions with two outcomes -/

/-- 00EE pops, or underflows (41_control_flow.md R121). -/
theorem exec_ret_cases (s : State) :
    (∃ h : 0 < s.sp.val, exec .ret s = .next { s with sp := ⟨s.sp.val - 1, by omega⟩, pc := s.stack[s.sp.val - 1] }) ∨
    (s.sp.val = 0 ∧ exec .ret s = .next (raiseFatal (.stackUnderflow s.pc (encode .ret)) s)) := by
  change (∃ h, execRet s = _) ∨ _ ∧ execRet s = _
  unfold execRet
  rcases s.pop?_cases with ⟨hsp, hpop⟩ | ⟨hpop, hsp⟩ <;> rw [hpop]
  · exact .inl ⟨hsp, rfl⟩
  · exact .inr ⟨hsp, rfl⟩

/-- 2nnn pushes, or overflows (41_control_flow.md R123). -/
theorem exec_call_cases (nnn : Address) (s : State) :
    (∃ h : s.sp.val < 16, exec (.call nnn) s = .next { s with
      stack := s.stack.set s.sp.val (s.pc + 2), sp := ⟨s.sp.val + 1, by omega⟩, pc := zextAddr nnn }) ∨
    (s.sp.val = 16 ∧ exec (.call nnn) s = .next (raiseFatal (.stackOverflow s.pc (encode (.call nnn))) s)) := by
  change (∃ h, execCall nnn s = _) ∨ _ ∧ execCall nnn s = _
  unfold execCall
  rcases s.push?_cases (s.pc + 2) with ⟨hsp, u, hpush, rfl⟩ | ⟨hpush, hsp⟩ <;> rw [hpush]
  · exact .inl ⟨hsp, rfl⟩
  · exact .inr ⟨hsp, rfl⟩

/-- Fx0A takes the lowest held key, or starts to wait (45_timers_keys.md R194). -/
theorem exec_ldVxK_cases (x : RegIdx) (s : State) :
    (∃ k : Fin 16, s.keys[k.val] = true ∧ (∀ j : Fin 16, j.val < k.val → s.keys[j.val] = false) ∧
      exec (.ldVxK x) s = writeReg x (BitVec.ofNat 8 k.val) s) ∨
    ((∀ k : Fin 16, s.keys[k.val] = false) ∧ exec (.ldVxK x) s = .next (s.setRunState (.awaitingKey x))) := by
  change (∃ k : Fin 16, _ ∧ _ ∧ execLdVxK x s = _) ∨ _ ∧ execLdVxK x s = _
  unfold execLdVxK
  rcases s.lowestKey_cases with ⟨k, hlow, hk, hmin⟩ | ⟨hlow, hnone⟩ <;> rw [hlow]
  · exact .inl ⟨k, hk, hmin, rfl⟩
  · exact .inr ⟨hnone, rfl⟩

/-- `t` is the state instruction `i` leads to from `s` when it raises no error. -/
def Completes (i : Instr) (s t : State) : Prop :=
  match i with
  | .ret => ∃ h : 0 < s.sp.val, t = { s with sp := ⟨s.sp.val - 1, by omega⟩, pc := s.stack[s.sp.val - 1] }
  | .call nnn => ∃ h : s.sp.val < 16, t = { s with
      stack := s.stack.set s.sp.val (s.pc + 2), sp := ⟨s.sp.val + 1, by omega⟩, pc := zextAddr nnn }
  | .drw x y n =>
    t = ((s.redraw (drawn dataOobPolicy x y n s).1).setReg vf (flagByte (drawn dataOobPolicy x y n s).2)).advance
  | .ldVxK x => (∃ b, t = (s.setReg x b).advance) ∨ t = s.setRunState (.awaitingKey x)
  | .ldBVx x => t = (s.setMem (storeBytes dataOobPolicy s.mem s.i.toNat (bcdDigits (s.reg x)))).advance
  | .ldMemVx x => t = (s.setMem (storeBytes dataOobPolicy s.mem s.i.toNat (s.regsUpTo x))).advance
  | .ldVxMem x => t = (loadRegs dataOobPolicy (x.toNat + 1) s).advance
  | i => exec i s = .next t

/-- Every instruction raises one of the errors of its own, or completes. -/
theorem exec_raises_or_completes {i : Instr} {s t : State} (h : exec i s = .next t) :
    (MayRaise i ∧ ∃ e, (∀ pc, e ≠ .outOfBoundsFetch pc) ∧ t = raiseFatal e s) ∨ Completes i s t := by
  cases i
  case ret =>
    rcases exec_ret_cases s with ⟨hsp, hx⟩ | ⟨_, hx⟩ <;> cases hx.symm.trans h
    · exact .inr ⟨hsp, rfl⟩
    · exact .inl ⟨trivial, _, by simp, rfl⟩
  case call nnn =>
    rcases exec_call_cases nnn s with ⟨hsp, hx⟩ | ⟨_, hx⟩ <;> cases hx.symm.trans h
    · exact .inr ⟨hsp, rfl⟩
    · exact .inl ⟨trivial, _, by simp, rfl⟩
  case ldVxK x =>
    rcases exec_ldVxK_cases x s with ⟨k, _, _, hx⟩ | ⟨_, hx⟩ <;> cases hx.symm.trans h
    · exact .inr (.inl ⟨_, rfl⟩)
    · exact .inr (.inr rfl)
  case drw | ldBVx | ldMemVx | ldVxMem =>
    rcases withCheckedData_next h with ht | ⟨e, he, ht⟩
    · exact .inr ht
    · exact .inl ⟨trivial, e, he, ht⟩
  all_goals exact .inr h

end Sys2Proof.Machine
end

section
/-! PROOFS. Which elements of the state an instruction may change (10_state.md sections 2 to 5, 40_cycle_engine.md section 4). -/

namespace Sys2Proof.Machine

/-- The elements of the state beside the registers, pc and the run sub-state, grouped as the spec gives them their writers. -/
inductive Element where
  | display | stack | memory | index | dt | st | keys | rand

/-- The elements an instruction may change. -/
def writes : Instr → List Element
  | .cls | .drw _ _ _ => [.display]
  | .ret | .call _ => [.stack]
  | .ldBVx _ | .ldMemVx _ => [.memory]
  | .ldI _ | .addIVx _ | .ldFVx _ => [.index]
  | .ldDtVx _ => [.dt]
  | .ldStVx _ => [.st]
  | .rnd _ _ => [.rand]
  | _ => []

/-- The element holds in `t` what it held in `s`. -/
def Element.Kept (s t : State) : Element → Prop
  | .display => DisplayKept s t
  | .stack => StackKept s t
  | .memory => t.mem = s.mem
  | .index => IndexKept s t
  | .dt => t.dt = s.dt
  | .st => t.st = s.st
  | .keys => KeysKept s t
  | .rand => RandKept s t

/-- An update of registers, pc and the run sub-state alone keeps every element. -/
theorem Element.kept_of_control (a : Element) (s : State) (v : Vector Byte 16) (pc : Word) (q : RunState) (r : StepResult) :
    a.Kept s { s with v := v, pc := pc, runState := q, result := r } := by
  cases a
  case memory | index | dt | st | keys => rfl
  all_goals exact ⟨rfl, rfl⟩

/-- An instruction changes no element but those it writes. -/
theorem exec_keeps {i : Instr} {s t : State} (h : exec i s = .next t) {a : Element} (ha : a ∉ writes i) : a.Kept s t := by
  rcases exec_raises_or_completes h with ⟨_, e, _, rfl⟩ | hc
  · exact a.kept_of_control s ..
  clear h
  cases i
  case ldVxK => rcases hc with ⟨_, rfl⟩ | rfl <;> exact a.kept_of_control s ..
  case ldVxMem => obtain rfl := hc; rw [loadRegs_eq]; exact a.kept_of_control s ..
  case ret | call =>
    obtain ⟨_, rfl⟩ := hc
    cases a <;> simp_all [writes, Element.Kept, DisplayKept, IndexKept, KeysKept, RandKept]
  case drw | ldBVx | ldMemVx =>
    obtain rfl := hc
    cases a <;> simp_all [writes, Element.Kept, DisplayKept, StackKept, IndexKept, KeysKept, RandKept]
  case cls | ldI | addIVx | ldFVx | ldDtVx | ldStVx | rnd =>
    cases hc
    cases a <;> simp_all [writes, Element.Kept, DisplayKept, StackKept, IndexKept, KeysKept, RandKept]
  all_goals cases hc; exact a.kept_of_control s ..

/-! ### The writers of each element -/

theorem display_mem_writes (i : Instr) : .display ∈ writes i ↔ i = .cls ∨ ∃ x y n, i = .drw x y n := by
  cases i <;> simp [writes]

theorem stack_mem_writes (i : Instr) : .stack ∈ writes i ↔ i = .ret ∨ ∃ nnn, i = .call nnn := by
  cases i <;> simp [writes]

theorem memory_mem_writes (i : Instr) : .memory ∈ writes i ↔ (∃ x, i = .ldBVx x) ∨ ∃ x, i = .ldMemVx x := by
  cases i <;> simp [writes]

theorem index_mem_writes (i : Instr) :
    .index ∈ writes i ↔ (∃ nnn, i = .ldI nnn) ∨ (∃ x, i = .addIVx x) ∨ ∃ x, i = .ldFVx x := by
  cases i <;> simp [writes]

theorem dt_mem_writes (i : Instr) : .dt ∈ writes i ↔ ∃ x, i = .ldDtVx x := by cases i <;> simp [writes]

theorem st_mem_writes (i : Instr) : .st ∈ writes i ↔ ∃ x, i = .ldStVx x := by cases i <;> simp [writes]

theorem rand_mem_writes (i : Instr) : .rand ∈ writes i ↔ ∃ x nn, i = .rnd x nn := by cases i <;> simp [writes]

theorem keys_not_mem_writes (i : Instr) : .keys ∉ writes i := by cases i <;> simp [writes]

/-- Dxyn draws with the framebuffer it found, or raises an error and keeps the display. -/
theorem exec_drw_gfx {x y : RegIdx} {n : Nibble} {s t : State} (h : exec (.drw x y n) s = .next t) :
    DisplayKept s t ∨ (t.gfx = (drawn dataOobPolicy x y n s).1 ∧ t.drawFlag = true) := by
  rcases exec_raises_or_completes h with ⟨_, e, _, rfl⟩ | hc
  · exact .inl ⟨rfl, rfl⟩
  · obtain rfl := hc
    exact .inr ⟨rfl, rfl⟩

/-- No instruction clears the draw flag (the spec's decision D29). -/
theorem exec_keeps_drawFlag {i : Instr} {s t : State} (h : exec i s = .next t) (hs : s.drawFlag = true) :
    t.drawFlag = true := by
  by_cases hi : .display ∈ writes i
  · rcases (display_mem_writes i).1 hi with rfl | ⟨x, y, n, rfl⟩
    · cases h
      rfl
    · rcases exec_drw_gfx h with ⟨_, hflag⟩ | ⟨_, hflag⟩
      · exact hflag.trans hs
      · exact hflag
  · obtain ⟨_, hflag⟩ := exec_keeps h hi
    exact hflag.trans hs

/-- Settles O20: an element that changed is one the instruction writes. -/
theorem eachStateElementHasItsWriters : Obligations.EachStateElementHasItsWriters := by
  intro i s t h
  have writer {a : Element} (ha : ¬ a.Kept s t) : a ∈ writes i := by
    by_contra hi
    exact ha (exec_keeps h hi)
  refine ⟨fun hd => (display_mem_writes i).1 (writer hd), exec_keeps_drawFlag h, fun hs => (stack_mem_writes i).1 (writer hs),
    fun hm => (memory_mem_writes i).1 (writer fun he => hm fun a => ?_), fun hi => (index_mem_writes i).1 (writer hi),
    fun hdt => (dt_mem_writes i).1 (writer hdt), fun hst => (st_mem_writes i).1 (writer hst)⟩
  rw [show t.mem = s.mem from he]

/-- Settles O22: the Key State has no writer, and Cxnn is the only writer of the random source. -/
theorem inputsUsedAsSpecified : Obligations.InputsUsedAsSpecified := by
  intro i s t h
  refine ⟨exec_keeps h (keys_not_mem_writes i), ?_, fun hi => exec_keeps h (a := .rand) (mt (rand_mem_writes i).1 hi)⟩
  rintro ⟨x, nn, rfl⟩
  cases h
  exact ⟨rfl, rfl⟩

/-- Settles O21: each register write of a completed instruction goes to a destination or to VF. -/
theorem onlyDestinationsAndFlagChange : Obligations.OnlyDestinationsAndFlagChange := by
  intro i s t h r hr
  rcases exec_raises_or_completes h with ⟨_, e, _, rfl⟩ | hc
  · rfl
  clear h
  cases i
  case ret | call => obtain ⟨_, rfl⟩ := hc; rfl
  case ldVxK =>
    rcases hc with ⟨_, rfl⟩ | rfl
    · rw [State.reg_advance, State.reg_setReg, if_neg (List.ne_of_not_mem_cons hr)]
    · rfl
  case ldBVx | ldMemVx => obtain rfl := hc; rfl
  case drw =>
    obtain rfl := hc
    rw [State.reg_advance, State.reg_setReg, if_neg (List.ne_of_not_mem_cons hr), State.reg_redraw]
  case ldVxMem x =>
    obtain rfl := hc
    have hlt : ¬ r.toNat < x.toNat + 1 := fun hlt => hr (List.mem_map.2 ⟨r.toNat, List.mem_range.2 hlt, by simp⟩)
    rw [State.reg_advance, reg_loadRegs _ _ (by omega), if_neg hlt]
  case addReg | sub | shr | subn | shl =>
    cases hc
    rw [State.reg_advance, reg_writeResultThenFlag, if_neg (by simp_all [destRegs]), if_neg (by simp_all [destRegs])]
  case ldByte | addByte | ldReg | or | and | xor | rnd | ldVxDt =>
    cases hc
    rw [State.reg_advance, State.reg_setReg, if_neg (List.ne_of_not_mem_cons hr)] <;> rfl
  all_goals cases hc; rfl

/-- Settles O19: an instruction that raises nothing keeps the run sub-state or starts to wait. -/
theorem onlySixInstructionsRaise : Obligations.OnlySixInstructionsRaise := by
  rintro i s t hs h ⟨e, he⟩
  rcases exec_run_cases i s t h with ⟨hraise, _⟩ | ⟨hrun, _⟩ | ⟨x, _, hwait, _⟩
  · exact hraise
  · exact absurd ⟨e, hrun ▸ he⟩ hs
  · rw [hwait] at he
    cases he

theorem isHalted_raiseFatal (e : FatalError) (s : State) : IsHalted (raiseFatal e s) := ⟨e, rfl⟩

/-- The skip primitive takes one of two pcs (41_control_flow.md R120). -/
theorem skipIf_pc_cases (s : State) (c : Bool) : (s.skipIf c).pc = s.pc + 2 ∨ (s.skipIf c).pc = s.pc + 4 := by
  cases c
  · exact .inl rfl
  · exact .inr rfl

/-- Settles O23: an instruction that raised nothing completed, and ends with its own rule of pc. -/
theorem pcAdvancesByTwoOrFour : Obligations.PcAdvancesByTwoOrFour := by
  intro i s t h hnot
  rcases exec_raises_or_completes h with ⟨_, e, _, rfl⟩ | hc
  · exact absurd (isHalted_raiseFatal e s) hnot
  cases i
  case jp | call | ret | jpV0 => trivial
  case seByte | sneByte | seReg | sneReg | skp | sknp => cases hc; exact skipIf_pc_cases s _
  case ldVxK =>
    rcases hc with ⟨_, rfl⟩ | rfl
    · exact .inl rfl
    · exact .inr ⟨rfl, rfl⟩
  case drw | ldBVx | ldMemVx => obtain rfl := hc; rfl
  case ldVxMem => obtain rfl := hc; rw [loadRegs_eq]; rfl
  all_goals cases hc; rfl

/-- Every instruction answers a next state in every state. -/
theorem exec_answers (i : Instr) (s : State) : ∃ t, exec i s = .next t := by
  cases i
  case ret => rcases exec_ret_cases s with ⟨_, hx⟩ | ⟨_, hx⟩ <;> exact ⟨_, hx⟩
  case call nnn => rcases exec_call_cases nnn s with ⟨_, hx⟩ | ⟨_, hx⟩ <;> exact ⟨_, hx⟩
  case ldVxK x => rcases exec_ldVxK_cases x s with ⟨k, _, _, hx⟩ | ⟨_, hx⟩ <;> exact ⟨_, hx⟩
  case drw | ldBVx | ldMemVx | ldVxMem => rcases withCheckedData_cases .. with ⟨_, hx⟩ | ⟨_, _, hx⟩ <;> exact ⟨_, hx⟩
  all_goals exact ⟨_, rfl⟩

/-- Settles O14: each kind of step ends in a state, and the executing one by the instruction's answer. -/
theorem everyStepHasNextState : Obligations.EveryStepHasNextState := by
  refine ⟨fun s => ?_, exec_answers⟩
  rcases step_cases s with ⟨_, _, h⟩ | ⟨_, _, h⟩ | ⟨_, _, h⟩ | ⟨i, _, _, _, h⟩ | ⟨_, _, _, _, h⟩
  case inr.inr.inr.inl =>
    obtain ⟨t, ht⟩ := exec_answers i (beginStep s)
    exact ⟨endStep t, h.trans (by rw [ht, finish])⟩
  all_goals exact ⟨_, h⟩

end Sys2Proof.Machine
end

section
/-! PROOFS. The step: what its next state can be, the fatal entry, and the tick (40_cycle_engine.md, 60_exceptions.md section 2). -/

namespace Sys2Proof.Machine

/-! ### The next state of a step -/

/-- A step that fetches an instruction executes it from the state with no event yet (40_cycle_engine.md R100, R103, R104). -/
theorem step_eq_finish {s : State} {i : Instr} (hx : Executes s i) : step s = finish (exec i (beginStep s)) := by
  obtain ⟨hrun, hpc, hdec⟩ := hx
  rcases step_cases s with ⟨e, hr, _⟩ | ⟨x, hr, _⟩ | ⟨_, hb, _⟩ | ⟨j, _, _, hd, hstep⟩ | ⟨op, _, _, hd, _⟩
  · rw [hrun] at hr; cases hr
  · rw [hrun] at hr; cases hr
  · omega
  · rw [hdec] at hd; cases hd; exact hstep
  · rw [hdec] at hd; cases hd

theorem endStep_raiseFatal (e : FatalError) (s : State) : endStep (raiseFatal e s) = raiseFatal e s := rfl

theorem endStep_of_not_isHalted {s : State} (h : ¬ IsHalted s) : endStep s = tick s := by
  rcases endStep_cases s with ⟨e, he, _⟩ | ⟨_, ht⟩
  · exact absurd ⟨e, he⟩ h
  · exact ht

theorem not_isHalted_of_running {s : State} (h : s.runState = .running) : ¬ IsHalted s := by
  rintro ⟨e, he⟩
  rw [h] at he
  cases he

/-- An instruction of a running machine raises one of the errors of its own, or reports nothing and does not halt. -/
theorem exec_running_cases {i : Instr} {s u : State} (hrun : s.runState = .running) (h : exec i s = .next u) :
    (MayRaise i ∧ ∃ e, (∀ pc, e ≠ .outOfBoundsFetch pc) ∧ u = raiseFatal e s) ∨ (¬ IsHalted u ∧ u.result = s.result) := by
  rcases exec_run_cases i s u h with hraise | ⟨hkept, hres⟩ | ⟨x, _, hwait, _, hres⟩
  · exact .inl hraise
  · exact .inr ⟨not_isHalted_of_running (hkept.trans hrun), hres⟩
  · refine .inr ⟨?_, hres⟩
    rintro ⟨e, he⟩
    rw [hwait] at he
    cases he

/-- What the next state of a step is, kind by kind (40_cycle_engine.md R100): only the last two kinds execute a word and tick. -/
theorem step_next_cases {s t : State} (h : step s = .next t) :
    (∃ e, s.runState = .halted e ∧ t = { s with result := .err e }) ∨
    (∃ x, s.runState = .awaitingKey x ∧ t = tick (pollKey x (beginStep s))) ∨
    (s.runState = .running ∧ 0xFFF ≤ s.pc.toNat ∧ t = raiseFatal (.outOfBoundsFetch s.pc) s) ∨
    (∃ i e, Executes s i ∧ MayRaise i ∧ (∀ pc, e ≠ .outOfBoundsFetch pc) ∧ t = raiseFatal e s) ∨
    (∃ i u, Executes s i ∧ exec i (beginStep s) = .next u ∧ ¬ IsHalted u ∧ u.result = .ok Events.none ∧ t = tick u) ∨
    (∃ op, s.runState = .running ∧ s.pc.toNat + 1 < 4096 ∧ decode (fetchWord s) = .unsupported op ∧
      t = tick (execUnsupported op (beginStep s))) := by
  rcases step_cases s with ⟨e, hr, hs⟩ | ⟨x, hr, hs⟩ | ⟨hr, hb, hs⟩ | ⟨i, hr, hb, hd, hs⟩ | ⟨op, hr, hb, hd, hs⟩ <;>
    rw [h] at hs
  · cases hs; exact .inl ⟨e, hr, rfl⟩
  · cases hs; exact .inr (.inl ⟨x, hr, rfl⟩)
  · cases hs; exact .inr (.inr (.inl ⟨hr, by omega, rfl⟩))
  · obtain ⟨u, hu⟩ := exec_answers i (beginStep s)
    rw [hu] at hs
    cases hs
    rcases exec_running_cases (s := beginStep s) hr hu with ⟨hraise, e, he, rfl⟩ | ⟨hnot, hres⟩
    · exact .inr (.inr (.inr (.inl ⟨i, e, ⟨hr, hb, hd⟩, hraise, he, rfl⟩)))
    · exact .inr (.inr (.inr (.inr (.inl ⟨i, u, ⟨hr, hb, hd⟩, hu, hnot, hres, endStep_of_not_isHalted hnot⟩))))
  · cases hs
    rw [endStep_of_running (show (execUnsupported op (beginStep s)).runState = .running from hr)]
    exact .inr (.inr (.inr (.inr (.inr ⟨op, hr, hb, hd, rfl⟩))))

/-- The key poll writes at most a register, pc and run_state (40_cycle_engine.md R110). -/
theorem pollKey_eq (x : RegIdx) (s : State) :
    pollKey x s = { s with v := (pollKey x s).v, pc := (pollKey x s).pc, runState := (pollKey x s).runState } := by
  rcases pollKey_cases x s with ⟨k, h, _⟩ | ⟨h, _⟩ <;> rw [h]
  rfl

@[simp] theorem pollKey_dt (x : RegIdx) (s : State) : (pollKey x s).dt = s.dt := by rw [pollKey_eq]
@[simp] theorem pollKey_st (x : RegIdx) (s : State) : (pollKey x s).st = s.st := by rw [pollKey_eq]
@[simp] theorem pollKey_result (x : RegIdx) (s : State) : (pollKey x s).result = s.result := by rw [pollKey_eq]

/-- A key poll does not halt the machine. -/
theorem pollKey_not_isHalted {x : RegIdx} {s : State} (h : ¬ IsHalted s) : ¬ IsHalted (pollKey x s) := by
  rcases pollKey_cases x s with ⟨k, hp, _⟩ | ⟨hp, _⟩ <;> rw [hp]
  · exact not_isHalted_of_running rfl
  · exact h

/-! ### The fatal entry (60_exceptions.md R216) -/

theorem fatalEntry_raiseFatal (e : FatalError) (s : State) : FatalEntry e s (raiseFatal e s) :=
  ⟨rfl, rfl, rfl, fun _ _ => rfl, fun _ => rfl, rfl, ⟨rfl, rfl⟩, ⟨rfl, rfl⟩, ⟨rfl, rfl⟩, rfl, ⟨rfl, rfl⟩⟩

/-- A step that halts a machine that was not halted is one fatal entry: a fetch beyond memory, or an instruction's own error. -/
theorem step_halts_cases {s t : State} {e : FatalError} (hs : ¬ IsHalted s) (h : step s = .next t)
    (ht : t.runState = .halted e) :
    t = raiseFatal e s ∧ s.runState = .running ∧
      ((e = .outOfBoundsFetch s.pc ∧ 0xFFF ≤ s.pc.toNat) ∨ ∀ pc, e ≠ .outOfBoundsFetch pc) := by
  rcases step_next_cases h with ⟨e', hr, rfl⟩ | ⟨x, hr, rfl⟩ | ⟨hr, hb, rfl⟩ | ⟨i, e', ⟨hr, _⟩, _, he, rfl⟩ |
    ⟨i, u, _, _, hnot, _, rfl⟩ | ⟨op, hr, _, _, rfl⟩
  · exact absurd ⟨e', hr⟩ hs
  · exact absurd ⟨e, ht⟩ (pollKey_not_isHalted (s := beginStep s) hs)
  · cases ht
    exact ⟨rfl, hr, .inl ⟨rfl, hb⟩⟩
  · cases ht
    exact ⟨rfl, hr, .inr he⟩
  · exact absurd ⟨e, ht⟩ hnot
  · exact absurd ⟨e, ht⟩ hs

/-- Settles O18: halting is the one operation of fatal entry. -/
theorem fatalErrorsArePrecise : Obligations.FatalErrorsArePrecise := by
  intro s t e hs h ht
  obtain ⟨rfl, _⟩ := step_halts_cases hs h ht
  exact fatalEntry_raiseFatal e s

/-- Settles O9: the fetch bound raises the error, and no instruction raises it. -/
theorem fetchBeyondMemoryHalts : Obligations.FetchBeyondMemoryHalts := by
  refine ⟨fun s hrun hpc => ⟨_, ?_, fatalEntry_raiseFatal _ s⟩, fun s t pc hs h ht => ?_⟩
  · rcases step_cases s with ⟨e, hr, _⟩ | ⟨x, hr, _⟩ | ⟨_, _, hstep⟩ | ⟨i, _, hb, _⟩ | ⟨op, _, hb, _⟩
    · rw [hrun] at hr; cases hr
    · rw [hrun] at hr; cases hr
    · exact hstep
    · omega
    · omega
  · obtain ⟨_, hrun, ⟨he, hpc⟩ | hne⟩ := step_halts_cases (fun ⟨e, he⟩ => hs e he) h ht
    · cases he
      exact ⟨hrun, hpc, rfl⟩
    · exact absurd rfl (hne pc)

/-- Settles O6: the step is the instruction's answer, with the tick when it is not halted. -/
theorem stepRunsDecodedInstruction : Obligations.StepRunsDecodedInstruction := by
  intro s t i hrun hpc hdec hexec
  have hstep : step s = .next (endStep t) := by
    rw [step_eq_finish ⟨hrun, hpc, hdec⟩, show exec i (beginStep s) = .next t from hexec, finish]
  constructor
  · rintro ⟨e, he⟩
    rw [hstep, endStep, he]
  · intro hnot
    rw [hstep, endStep_of_not_isHalted hnot]

/-- Settles O10: the step writes the error back into the returned value, where the invariant has it already. -/
theorem haltedStepChangesNothing : Obligations.HaltedStepChangesNothing := by
  intro s e he
  have hstep : step s = stepHalted e s := by rw [step, he]
  refine ⟨hstep, fun hinv => ?_⟩
  rw [hstep, stepHalted, ← (hinv.halted_result e).1 he]

/-! ### The tick (40_cycle_engine.md R108) -/

/-- The tick adds a Beep to the events exactly when ST was 1. -/
theorem tick_result_of_ok {s : State} {r : Option UnsupportedReport} (h : s.result = .ok ⟨false, r⟩) :
    (tick s).result = .ok ⟨decide (s.st.toNat = 1), r⟩ := by
  have hst : s.st = 0x01#8 ↔ s.st.toNat = 1 := BitVec.toNat_inj.symm
  rw [tick_result, h]
  by_cases h1 : s.st = 0x01#8
  · rw [if_pos h1, decide_eq_true (hst.1 h1)]; rfl
  · rw [if_neg h1, decide_eq_false (mt hst.2 h1)]

/-- A tick from a state with no Beep yet: both timers one down, and a Beep exactly when ST was 1. -/
theorem tick_effect {s : State} {r : Option UnsupportedReport} (h : s.result = .ok ⟨false, r⟩) :
    (tick s).dt.toNat = s.dt.toNat - 1 ∧ (tick s).st.toNat = s.st.toNat - 1 ∧
      (outBeep (tick s) = true ↔ s.st.toNat = 1) := by
  refine ⟨toNat_tickTimer s.dt, toNat_tickTimer s.st, ?_⟩
  rw [outBeep, tick_result_of_ok h, decide_eq_true_eq]

/-- Settles O12: a step that does not end halted ends with the tick, and before it the timers are changed by Fx15 and Fx18 alone. -/
theorem everyNonFatalStepTicks : Obligations.EveryNonFatalStepTicks := by
  intro s t h hnot
  rcases step_next_cases h with ⟨e, hr, rfl⟩ | ⟨x, hr, rfl⟩ | ⟨hr, hb, rfl⟩ | ⟨i, e, _, _, _, rfl⟩ |
    ⟨i, u, hx, hexec, _, hres, rfl⟩ | ⟨op, hr, _, _, rfl⟩
  · exact absurd ⟨e, hr⟩ hnot
  · obtain ⟨hdt, hst⟩ := tick_effect (pollKey_result x (beginStep s))
    rw [pollKey_dt] at hdt
    rw [pollKey_st] at hst
    exact ⟨fun _ => hdt, fun _ => hst⟩
  · exact absurd (isHalted_raiseFatal _ s) hnot
  · exact absurd (isHalted_raiseFatal _ s) hnot
  · obtain ⟨hdt, hst⟩ := tick_effect hres
    refine ⟨fun hno => ?_, fun hno => ?_⟩
    · have hkept : u.dt = s.dt := exec_keeps hexec (a := .dt) fun hi => by
        obtain ⟨x, rfl⟩ := (dt_mem_writes i).1 hi
        exact hno ⟨x, hx⟩
      rw [hdt, hkept]
    · have hkept : u.st = s.st := exec_keeps hexec (a := .st) fun hi => by
        obtain ⟨x, rfl⟩ := (st_mem_writes i).1 hi
        exact hno ⟨x, hx⟩
      rw [← hkept]
      exact hst
  · obtain ⟨hdt, hst⟩ := tick_effect (s := execUnsupported op (beginStep s)) rfl
    exact ⟨fun _ => hdt, fun _ => hst⟩

/-- Settles O13: by induction on the number of steps, each of which ticks DT. -/
theorem delayTimerCountsSteps : Obligations.DelayTimerCountsSteps := by
  intro f j hsteps
  induction j with
  | zero => rfl
  | succ j ih =>
    obtain ⟨hstep, hnot, hno⟩ := hsteps j (Nat.lt_succ_self j)
    obtain ⟨hdt, _⟩ := everyNonFatalStepTicks (f j) (f (j + 1)) hstep hnot
    rw [hdt hno, ih fun k hk => hsteps k (Nat.lt_succ_of_lt hk)]
    omega

end Sys2Proof.Machine
end

section
/-! PROOFS. The wait for a key (40_cycle_engine.md section 6, 45_timers_keys.md section 3), the self-jump that ends a run
(70_reset_and_hazards.md section 6), and the placing of a word where the next step fetches it (assumption 11). -/

namespace Sys2Proof.Machine

/-! ### Keys -/

/-- At most one key is held with no lower one held. -/
theorem lowest_held_unique {keys : Vector Bool 16} {j k : Fin 16} (hj : keys[j.val] = true) (hk : keys[k.val] = true)
    (hjmin : ∀ l : Fin 16, l.val < j.val → keys[l.val] = false) (hkmin : ∀ l : Fin 16, l.val < k.val → keys[l.val] = false) :
    j = k := by
  rcases lt_trichotomy j k with hlt | heq | hlt
  · exact absurd hj (by rw [hkmin j hlt]; decide)
  · exact heq
  · exact absurd hk (by rw [hjmin k hlt]; decide)

/-- A key number as a register value. -/
theorem toNat_keyByte (k : Fin 16) : (BitVec.ofNat 8 k.val).toNat = k.val := by
  rw [BitVec.toNat_ofNat, Nat.mod_eq_of_lt (by omega)]

theorem pollKey_of_lowest {x : RegIdx} {s : State} {k : Fin 16} (hk : s.keys[k.val] = true)
    (hmin : ∀ j : Fin 16, j.val < k.val → s.keys[j.val] = false) : pollKey x s = takeKey x k s := by
  rcases pollKey_cases x s with ⟨j, hp, hj, hjmin⟩ | ⟨_, hnone⟩
  · rw [hp, lowest_held_unique hj hk hjmin hmin]
  · exact absurd hk (by rw [hnone k]; decide)

theorem pollKey_of_none {x : RegIdx} {s : State} (hnone : ∀ k : Fin 16, s.keys[k.val] = false) : pollKey x s = s := by
  rcases pollKey_cases x s with ⟨j, _, hj, _⟩ | ⟨hp, _⟩
  · exact absurd hj (by rw [hnone j]; decide)
  · exact hp

/-- Settles O11: the step is the poll, which takes the lowest held key or nothing, and the tick. -/
theorem keyWaitPollsKeysAndTicks : Obligations.KeyWaitPollsKeysAndTicks := by
  intro s x hwait
  have hstep : step s = stepAwaiting x s := by rw [step, hwait]
  refine ⟨_, hstep, fun k hk hmin => ?_, fun hnone => ?_, ?_⟩
  · rw [pollKey_of_lowest (s := beginStep s) hk hmin]
    refine ⟨rfl, ?_, rfl, fun r hr => ?_⟩
    · rw [reg_tick, takeKey, State.reg_setRunState, State.reg_advance, State.reg_setReg_same, toNat_keyByte]
    · rw [reg_tick, takeKey, State.reg_setRunState, State.reg_advance, State.reg_setReg,
        if_neg (List.ne_of_not_mem_cons hr), reg_beginStep]
  · rw [pollKey_of_none (s := beginStep s) hnone]
    exact ⟨hwait, rfl, fun _ _ => rfl⟩
  · have hres := tick_result_of_ok (pollKey_result x (beginStep s))
    have hdt := toNat_tickTimer s.dt
    have hst := toNat_tickTimer s.st
    rw [pollKey_st] at hres
    rw [← beginStep_dt, ← pollKey_dt x] at hdt
    rw [← beginStep_st, ← pollKey_st x] at hst
    rw [pollKey_eq] at *
    exact ⟨fun _ => rfl, rfl, ⟨rfl, rfl⟩, ⟨rfl, rfl⟩, rfl, ⟨rfl, rfl⟩, hdt, hst, hres⟩

/-- Settles O57: with a key held the instruction is one register write, with none it is the wait alone. -/
theorem keyWaitInstruction : Obligations.KeyWaitInstruction := by
  intro s x
  refine ⟨toNat_encodeXSub 0xF00A#16 x, fun k hk hmin => ?_, fun hnone => ?_⟩
  · rcases exec_ldVxK_cases x s with ⟨j, hj, hjmin, hx⟩ | ⟨hnone, _⟩
    · obtain rfl := lowest_held_unique hj hk hjmin hmin
      obtain ⟨t, ht, hreg, hrest⟩ := writeReg_completes x (BitVec.ofNat 8 j.val) s
      exact ⟨t, hx.trans ht, hreg ▸ toNat_keyByte j, hrest⟩
    · exact absurd hk (by rw [hnone k]; decide)
  · rcases exec_ldVxK_cases x s with ⟨j, hj, _⟩ | ⟨_, hx⟩
    · exact absurd hj (by rw [hnone j]; decide)
    · exact ⟨_, hx, rfl, rfl, fun _ _ => rfl, fun _ => rfl, rfl, ⟨rfl, rfl⟩, ⟨rfl, rfl⟩, ⟨rfl, rfl⟩, rfl, ⟨rfl, rfl⟩, rfl⟩

/-! ### The self-jump -/

/-- The word of a jump to a 12-bit pc is the word of 1nnn with that pc as its address. -/
theorem decode_selfJump {pc : Word} (h : pc.toNat ≤ 0xFFE) : decode (0x1000#16 ||| pc) = .instr (.jp (pc.setWidth 12)) := by
  have hpc : (pc.setWidth 12).setWidth 16 = pc := by
    apply BitVec.eq_of_toNat_eq
    rw [BitVec.toNat_setWidth, BitVec.toNat_setWidth]
    omega
  rw [← decode_encode, encode, encodeAddr, hpc]

/-- Settles O25: the step jumps to where it is, so only the tick and the empty events show. -/
theorem selfJumpChangesOnlyTimers : Obligations.SelfJumpChangesOnlyTimers := by
  rintro s ⟨hrun, hpc, hword⟩
  have hx : Executes s (.jp (s.pc.setWidth 12)) := ⟨hrun, by omega, hword ▸ decode_selfJump hpc⟩
  have htarget : zextAddr (s.pc.setWidth 12) = s.pc := by
    apply BitVec.eq_of_toNat_eq
    rw [toNat_zextAddr, BitVec.toNat_setWidth]
    omega
  have hstep := step_of_executes hx (exec_jp _ (beginStep s)) rfl
  rw [htarget] at hstep
  exact ⟨_, hstep, ⟨hrun, hpc, hword⟩, rfl⟩

/-! ### A placed word -/

theorem wordOfBytes_bytesOfWord (op : Word) : wordOfBytes (bytesOfWord op).1 (bytesOfWord op).2 = op := by
  apply BitVec.eq_of_toNat_eq
  have hop : op.toNat < 65536 := op.isLt
  rw [wordOfBytes, bytesOfWord, BitVec.toNat_append, BitVec.extractLsb'_toNat, BitVec.extractLsb'_toNat,
    ← Nat.shiftLeft_add_eq_or_of_lt (Nat.mod_lt _ (by decide)), Nat.shiftLeft_eq, Nat.shiftRight_eq_div_pow]
  omega

/-- The instruction read from a table word is the one the decoder reads from the word. -/
theorem decode_tableWord {nbits w : Nat} {i : Instr} (h : decodeTableWord nbits w = some i) :
    decode (tableWord nbits w) = .instr i := by
  simp only [decodeTableWord, decodeBytes, wordOfBytes_bytesOfWord] at h
  cases hd : decode (tableWord nbits w) with
  | instr j => rw [hd] at h; cases h; rfl
  | unsupported op => rw [hd] at h; cases h

/-- A word placed within the fetch bound is the word fetched there (20_memory.md R54). -/
theorem fetchWord_placeWord (op : Word) {s : State} (hmem : s.mem.wf = true) (hpc : s.pc.toNat + 1 < 4096) :
    fetchWord (placeWord op s) = op := by
  have hmem' := Memory.wf_write s.mem s.pc.toNat (bytesOfWord op).1 hmem
  rw [fetchWord, placeWord_mem, placeWord_pc, Memory.read_write _ _ _ _ hmem' hpc, Memory.read_write _ _ _ _ hmem' hpc,
    if_pos rfl, if_neg (by omega), Memory.read_write _ _ _ _ hmem (by omega), if_pos rfl, wordOfBytes_bytesOfWord]

theorem readyToFetch_pc_lt (s : State) : (readyToFetch s).pc.toNat + 1 < 4096 := by
  rw [readyToFetch_pc, fetchFaults]
  split
  next => decide
  next h =>
    rw [decide_eq_true_eq] at h
    omega

/-- Settles O7: the machine is made ready to fetch, and fetches the word stored at pc. -/
theorem placedWordRunsNext : Obligations.PlacedWordRunsNext := by
  intro s w i hmem hdec
  have hpc := readyToFetch_pc_lt s
  refine ⟨rfl, hpc, ?_⟩
  rw [State.withFetchWord, fetchWord_placeWord (s := readyToFetch s) _ hmem hpc]
  exact decode_tableWord hdec

end Sys2Proof.Machine
end

section
/-! PROOFS. The invariant of the machine: at creation, and kept by every step and every host operation (10_state.md sections 3, 5
and 9, 60_exceptions.md section 2, 70_reset_and_hazards.md sections 1 to 3). -/

namespace Sys2Proof.Machine

/-! ### The parts of a step -/

/-- A fatal entry puts the error in run_state and in the returned value. -/
theorem Inv.raiseFatal {s : State} (hs : Inv s) (e : FatalError) : Inv (raiseFatal e s) where
  memory_canonical := hs.memory_canonical
  pixels_binary := hs.pixels_binary
  pc_bound := hs.pc_bound
  stack_bound := hs.stack_bound
  waiting_pc _ h := by cases h
  halted_result _ := by simp

/-- A Beep turns no result into an error. -/
theorem StepResult.withBeep_eq_err (r : StepResult) (e : FatalError) : r.withBeep = .err e ↔ r = .err e := by
  cases r <;> simp [withBeep]

theorem Inv.tick {s : State} (hs : Inv s) : Inv (tick s) where
  memory_canonical := hs.memory_canonical
  pixels_binary := hs.pixels_binary
  pc_bound := hs.pc_bound
  stack_bound := hs.stack_bound
  waiting_pc := hs.waiting_pc
  halted_result e := by
    rw [tick_runState, tick_result, hs.halted_result e]
    split
    · rw [StepResult.withBeep_eq_err]
    · rfl

/-- A state that is not halted and whose returned value is no error meets the last clause. -/
theorem halted_result_of_ok {s : State} {ev : Events} (hs : ¬ IsHalted s) (hr : s.result = .ok ev) (e : FatalError) :
    s.runState = .halted e ↔ s.result = .err e := by
  refine ⟨fun h => absurd ⟨e, h⟩ hs, fun h => ?_⟩
  rw [hr] at h
  cases h

theorem Inv.beginStep {s : State} (hs : Inv s) (hnot : ¬ IsHalted s) : Inv (beginStep s) where
  memory_canonical := hs.memory_canonical
  pixels_binary := hs.pixels_binary
  pc_bound := hs.pc_bound
  stack_bound := hs.stack_bound
  waiting_pc := hs.waiting_pc
  halted_result := halted_result_of_ok (s := Machine.beginStep s) hnot rfl

/-- From a fetchable word, pc + 2 and pc + 4 are within the bound of pc. -/
theorem pc_bound_of_fetchable {pc : Word} (h : pc.toNat + 1 < 4096) :
    (pc + 2).toNat ≤ 0x10FE ∧ (pc + 4).toNat ≤ 0x10FE := by
  constructor <;> bv_omega

theorem Inv.execUnsupported {s : State} (hs : Inv s) (hrun : s.runState = .running) (hpc : s.pc.toNat + 1 < 4096) (op : Word) :
    Inv (execUnsupported op (Machine.beginStep s)) where
  memory_canonical := hs.memory_canonical
  pixels_binary := hs.pixels_binary
  pc_bound := (pc_bound_of_fetchable hpc).1
  stack_bound := hs.stack_bound
  waiting_pc x h := by rw [execUnsupported_runState, beginStep_runState, hrun] at h; cases h
  halted_result :=
    halted_result_of_ok (s := Machine.execUnsupported op (Machine.beginStep s)) (not_isHalted_of_running hrun) rfl

theorem Inv.takeKey {s : State} (hs : Inv s) (hpc : s.pc.toNat + 1 < 4096) (hok : ∀ e, s.result ≠ .err e) (x : RegIdx) (k : Fin 16) :
    Inv (takeKey x k s) where
  memory_canonical := hs.memory_canonical
  pixels_binary := hs.pixels_binary
  pc_bound := (pc_bound_of_fetchable hpc).1
  stack_bound := hs.stack_bound
  waiting_pc _ h := by cases h
  halted_result e := ⟨fun h => (by cases h), fun h => absurd h (hok e)⟩

theorem Inv.pollKey {s : State} (hs : Inv s) {x : RegIdx} (hwait : s.runState = .awaitingKey x) : Inv (pollKey x s) := by
  rcases pollKey_cases x s with ⟨k, hp, _⟩ | ⟨hp, _⟩ <;> rw [hp]
  · refine hs.takeKey (hs.waiting_pc x hwait) (fun e he => ?_) x k
    rw [← hs.halted_result e, hwait] at he
    cases he
  · exact hs

/-! ### An instruction -/

section
variable {i : Instr} {s t : State} (hs : Inv s) (h : exec i s = .next t)
include hs h

/-- Memory stays canonical: its writers store byte by byte. -/
theorem exec_keeps_wf : t.mem.wf = true := by
  by_cases hi : .memory ∈ writes i
  · rcases exec_raises_or_completes h with ⟨_, e, _, rfl⟩ | hc
    · exact hs.memory_canonical
    · rcases (memory_mem_writes i).1 hi with ⟨x, rfl⟩ | ⟨x, rfl⟩ <;> obtain rfl := hc <;>
        exact wf_storeBytes _ _ _ _ hs.memory_canonical
  · rw [show t.mem = s.mem from exec_keeps h hi]
    exact hs.memory_canonical

/-- Pixels stay 0 or 1: 00E0 clears them, and Dxyn inverts some of them. -/
theorem exec_keeps_pixels (k : Fin 2048) : t.gfx.get k = 0x00#8 ∨ t.gfx.get k = 0x01#8 := by
  by_cases hi : .display ∈ writes i
  · rcases (display_mem_writes i).1 hi with rfl | ⟨x, y, n, rfl⟩
    · cases h
      exact .inl (Gfx.get_blank k)
    · rcases exec_drw_gfx h with ⟨hgfx, _⟩ | ⟨hgfx, _⟩ <;> rw [hgfx]
      · exact hs.pixels_binary k
      · exact drawCells_binary _ _ hs.pixels_binary k
  · obtain ⟨hgfx, _⟩ : DisplayKept s t := exec_keeps h hi
    rw [hgfx]
    exact hs.pixels_binary k

/-- Stack entries stay at most 0x1000: a push from a fetchable pc stores pc + 2. -/
theorem exec_keeps_stack_bound (hpc : s.pc.toNat + 1 < 4096) (k : Fin 16) : (t.stack[k.val]).toNat ≤ 0x1000 := by
  by_cases hi : .stack ∈ writes i
  · rcases exec_raises_or_completes h with ⟨_, e, _, rfl⟩ | hc
    · exact hs.stack_bound k
    · rcases (stack_mem_writes i).1 hi with rfl | ⟨nnn, rfl⟩ <;> obtain ⟨hsp, rfl⟩ := hc
      · exact hs.stack_bound k
      · simp only [Vector.getElem_set]
        split
        · bv_omega
        · exact hs.stack_bound k
  · obtain ⟨_, hstack⟩ : StackKept s t := exec_keeps h hi
    rw [hstack]
    exact hs.stack_bound k

/-- pc stays at most 0x10FE, the largest target of Bnnn: the other instructions go to an address immediate, to a return address, or
at most 4 beyond a fetchable pc (10_state.md R25). -/
theorem exec_keeps_pc_bound (hrun : s.runState = .running) (hpc : s.pc.toNat + 1 < 4096) : t.pc.toNat ≤ 0x10FE := by
  rcases exec_running_cases hrun h with ⟨_, e, _, rfl⟩ | ⟨hnot, _⟩
  · exact hs.pc_bound
  rcases exec_raises_or_completes h with ⟨_, e, _, rfl⟩ | hc
  · exact hs.pc_bound
  obtain ⟨h2, h4⟩ := pc_bound_of_fetchable hpc
  have hadv := pcAdvancesByTwoOrFour i s t h hnot
  cases i
  case jp nnn =>
    cases hc
    rw [State.setPc_pc, toNat_zextAddr]
    omega
  case call nnn =>
    obtain ⟨_, rfl⟩ := hc
    exact (toNat_zextAddr nnn).trans_le (by omega)
  case ret =>
    obtain ⟨hsp, rfl⟩ := hc
    exact (hs.stack_bound ⟨s.sp.val - 1, by omega⟩).trans (by decide)
  case jpV0 nnn =>
    cases hc
    have hV0 := toNat_zextByte (s.reg 0#4)
    have hnnn := toNat_zextAddr nnn
    rw [State.setPc_pc, BitVec.toNat_add]
    omega
  case seByte | sneByte | seReg | sneReg | skp | sknp => rcases hadv with hadv | hadv <;> rw [hadv] <;> assumption
  case ldVxK =>
    rcases hadv with hadv | ⟨hadv, _⟩ <;> rw [hadv]
    · exact h2
    · exact hs.pc_bound
  all_goals rw [show t.pc = s.pc + 2 from hadv]; exact h2

/-- An instruction started from a fetchable pc with no error in the returned value keeps the invariant. -/
theorem Inv.exec (hrun : s.runState = .running) (hpc : s.pc.toNat + 1 < 4096) {ev : Events} (hok : s.result = .ok ev) :
    Inv t := by
  rcases exec_running_cases hrun h with ⟨_, e, _, rfl⟩ | ⟨hnot, hres⟩
  · exact hs.raiseFatal e
  · refine ⟨exec_keeps_wf hs h, exec_keeps_pixels hs h, exec_keeps_pc_bound hs h hrun hpc, exec_keeps_stack_bound hs h hpc,
      fun x hwait => ?_, halted_result_of_ok hnot (hres.trans hok)⟩
    rcases exec_run_cases i s t h with ⟨_, e, _, rfl⟩ | ⟨hkept, _⟩ | ⟨_, _, _, hkept, _⟩
    · cases hwait
    · rw [hkept, hrun] at hwait
      cases hwait
    · rwa [hkept]

end

/-! ### The statements -/

/-- Settles O15: the reset values, field by field. -/
theorem createdStateMeetsInvariant : Obligations.CreatedStateMeetsInvariant where
  memory_canonical := rfl
  pixels_binary k := .inl (Gfx.get_blank k)
  pc_bound := by decide
  stack_bound k := by simp [State.reset]
  waiting_pc _ h := by cases h
  halted_result := halted_result_of_ok (not_isHalted_of_running rfl) rfl

/-- Settles O16: by the kinds of step; the executing ones start from an invariant state with no event and end with the tick. -/
theorem stepKeepsInvariant : Obligations.StepKeepsInvariant := by
  intro s t hs h
  rcases step_next_cases h with ⟨e, hr, rfl⟩ | ⟨x, hr, rfl⟩ | ⟨hr, hb, rfl⟩ | ⟨i, e, _, _, _, rfl⟩ |
    ⟨i, u, ⟨hr, hpc, _⟩, hexec, _, _, rfl⟩ | ⟨op, hr, hpc, _, rfl⟩
  · rwa [← (hs.halted_result e).1 hr]
  · have hnot : ¬ IsHalted s := fun ⟨e, he⟩ => by rw [hr] at he; cases he
    exact ((hs.beginStep hnot).pollKey hr).tick
  · exact hs.raiseFatal _
  · exact hs.raiseFatal e
  · exact ((hs.beginStep (not_isHalted_of_running hr)).exec hexec hr hpc rfl).tick
  · exact (hs.execUnsupported hr hpc op).tick

/-- Another canonical memory keeps the invariant. -/
theorem Inv.setMem {s : State} (hs : Inv s) {m : Memory} (hm : m.wf = true) : Inv (s.setMem m) :=
  ⟨hm, hs.pixels_binary, hs.pc_bound, hs.stack_bound, hs.waiting_pc, hs.halted_result⟩

theorem inv_created (table : Font) : Inv (created table) := createdStateMeetsInvariant.setMem (wf_fontMemory table)

/-- The draw flag and the inputs are in no clause of the invariant. -/
theorem Inv.setInputs {s : State} (hs : Inv s) (d : Bool) (keys : Vector Bool 16) (supply : List Byte) (draws : Nat) :
    Inv { s with drawFlag := d, keys := keys, randSupply := supply, randDraws := draws } :=
  ⟨hs.memory_canonical, hs.pixels_binary, hs.pc_bound, hs.stack_bound, hs.waiting_pc, hs.halted_result⟩

theorem Inv.applyHostOpWith {s : State} (hs : Inv s) (table : Font) (op : HostOp) : Inv (applyHostOpWith table op s) := by
  cases op
  case load bytes =>
    rw [Machine.applyHostOpWith, hostLoad]
    split
    next t hload =>
      split at hload <;> cases hload
      exact hs.setMem (wf_loadBytes _ _ _ hs.memory_canonical)
    next => exact hs
  case reset => exact (inv_created table).setInputs _ _ _ _
  all_goals exact hs.setInputs _ _ _ _

/-- Settles O17: creation meets the invariant, and steps and host operations keep it. -/
theorem reachableStatesMeetInvariant : Obligations.ReachableStatesMeetInvariant := by
  refine ⟨fun table op s hs => hs.applyHostOpWith table op, fun table s hreach => ?_⟩
  induction hreach with
  | created => exact inv_created table
  | stepped _ hstep ih => exact stepKeepsInvariant _ _ ih hstep
  | hosted op _ ih => exact ih.applyHostOpWith table op

end Sys2Proof.Machine
end

section
/-! PROOFS. The words of the formats with two register fields as numbers (30_encoding.md R72), and the words of the spec's examples. -/

namespace Sys2Proof

/-- The `y` field in its place: no bit leaves the word. -/
theorem toNat_regIdx_shifted_four (y : RegIdx) : (y.setWidth 16 <<< 4).toNat = y.toNat <<< 4 := by
  have hy : y.toNat < 16 := y.isLt
  rw [BitVec.toNat_shiftLeft, BitVec.toNat_setWidth_of_le (by decide), Nat.shiftLeft_eq, Nat.mod_eq_of_lt (by omega)]

theorem toNat_encodeXYSub (bits : Word) (x y : RegIdx) :
    (encodeXYSub bits x y).toNat = (bits.toNat ||| x.toNat <<< 8 ||| y.toNat <<< 4) := by
  rw [encodeXYSub, BitVec.toNat_or, BitVec.toNat_or, toNat_regIdx_shifted, toNat_regIdx_shifted_four]

theorem toNat_encodeXYN (bits : Word) (x y : RegIdx) (n : Nibble) :
    (encodeXYN bits x y n).toNat = (bits.toNat ||| x.toNat <<< 8 ||| y.toNat <<< 4 ||| n.toNat) := by
  rw [encodeXYN, BitVec.toNat_or, BitVec.toNat_or, BitVec.toNat_or, toNat_regIdx_shifted, toNat_regIdx_shifted_four,
    BitVec.toNat_setWidth_of_le (by decide)]

/-- Settles O1: the decoder evaluated on each of the fourteen words. -/
theorem decodesWordsOfTheSpec : Obligations.DecodesWordsOfTheSpec := by
  unfold Obligations.DecodesWordsOfTheSpec
  decide

end Sys2Proof
end

section
/-! PROOFS. Calls, returns, computed jumps and the skips on registers and keys (41_control_flow.md, 45_timers_keys.md section 1). -/

namespace Sys2Proof.Machine

theorem exec_jpV0 (nnn : Address) (s : State) :
    exec (.jpV0 nnn) s = .next (s.setPc (zextByte (s.reg 0#4) + zextAddr nnn)) := rfl

theorem exec_seReg (x y : RegIdx) (s : State) :
    exec (.seReg x y) s = .next (s.skipIf (decide (s.reg x = s.reg y))) := rfl

theorem exec_sneReg (x y : RegIdx) (s : State) :
    exec (.sneReg x y) s = .next (s.skipIf (decide (s.reg x ≠ s.reg y))) := rfl

theorem exec_skp (x : RegIdx) (s : State) : exec (.skp x) s = .next (s.skipIf (s.keyDown (s.reg x))) := rfl

theorem exec_sknp (x : RegIdx) (s : State) : exec (.sknp x) s = .next (s.skipIf (!s.keyDown (s.reg x))) := rfl

/-- Settles O28: the sum of a byte and a 12-bit address does not wrap at 16 bits. -/
theorem computedJumpAddsV0 : Obligations.ComputedJumpAddsV0 := by
  intro s nnn
  refine ⟨toNat_encodeAddr 0xB000#16 nnn, _, exec_jpV0 nnn s, ?_, onlyRegsAndPc_setPc [] s _⟩
  have hV0 : (s.reg 0#4).toNat < 256 := (s.reg 0#4).isLt
  have hnnn : nnn.toNat < 4096 := nnn.isLt
  rw [State.setPc_pc, BitVec.toNat_add, toNat_zextByte, toNat_zextAddr, Nat.mod_eq_of_lt (by omega)]

/-- Settles O29: the push writes the entry at sp, or finds the stack full. -/
theorem callPushesReturnAddress : Obligations.CallPushesReturnAddress := by
  intro s nnn
  refine ⟨toNat_encodeAddr 0x2000#16 nnn, fun hlt => ?_, fun hfull => ?_⟩
  · rcases exec_call_cases nnn s with ⟨hsp, hx⟩ | ⟨hsp, _⟩
    · refine ⟨_, hx, toNat_zextAddr nnn, rfl, fun k => ?_, fun _ _ => rfl, fun _ => rfl, rfl, ⟨rfl, rfl⟩, ⟨rfl, rfl⟩,
        ⟨rfl, rfl⟩, rfl, ⟨rfl, rfl⟩⟩
      simp only [Vector.getElem_set, eq_comm]
    · omega
  · rcases exec_call_cases nnn s with ⟨hsp, _⟩ | ⟨_, hx⟩
    · omega
    · exact ⟨_, hx, fatalEntry_raiseFatal _ s⟩

/-- Settles O30: the pop reads the entry below sp, or finds the stack empty. -/
theorem returnPopsAddress : Obligations.ReturnPopsAddress := by
  intro s
  refine ⟨rfl, fun k hk => ?_, fun hempty => ?_⟩
  · rcases exec_ret_cases s with ⟨hsp, hx⟩ | ⟨hsp, _⟩
    · have hentry : s.sp.val - 1 = k.val := by omega
      refine ⟨_, hx, ?_, hentry, rfl, fun _ _ => rfl, fun _ => rfl, rfl, ⟨rfl, rfl⟩, ⟨rfl, rfl⟩, ⟨rfl, rfl⟩, rfl, ⟨rfl, rfl⟩⟩
      simp only [hentry]
    · omega
  · rcases exec_ret_cases s with ⟨hsp, _⟩ | ⟨_, hx⟩
    · omega
    · exact ⟨_, hx, fatalEntry_raiseFatal _ s⟩

/-- Settles O31: the return reads the entry that the call wrote. -/
theorem callReturnRoundTrip : Obligations.CallReturnRoundTrip := by
  intro s t u nnn k hk hcall hsp hentry
  obtain ⟨_, hpush, _⟩ := callPushesReturnAddress s nnn
  obtain ⟨t', hcall', _, htsp, hstack, _⟩ := hpush (by omega)
  cases hcall'.symm.trans hcall
  obtain ⟨_, hpop, _⟩ := returnPopsAddress u
  obtain ⟨w, hret, hpc, hwsp, _⟩ := hpop k (by rw [hsp, htsp, hk])
  refine ⟨w, hret, ?_, Fin.ext (hwsp.trans hk.symm)⟩
  rw [hpc, hentry, hstack k, if_pos hk.symm]

/-- Settles O33: both are the skip primitive, on a condition and on its negation. -/
theorem registerSkips : Obligations.RegisterSkips := by
  intro s x y
  refine ⟨toNat_encodeXYSub 0x5000#16 x y, toNat_encodeXYSub 0x9000#16 x y,
    ⟨_, exec_seReg x y s, onlyRegsAndPc_skipIf [] s _, skipIf_decide_pc s _⟩,
    ⟨_, exec_sneReg x y s, onlyRegsAndPc_skipIf [] s _, ?_⟩⟩
  obtain ⟨hskip, hnext⟩ := skipIf_decide_pc s (s.reg x ≠ s.reg y)
  exact ⟨hskip, fun h => hnext (not_not_intro h)⟩

/-- A register value below 16 names a key (45_timers_keys.md R192). -/
theorem keyDown_of_lt {s : State} {b : Byte} {k : Fin 16} (h : b.toNat = k.val) : s.keyDown b = s.keys[k.val] := by
  rw [State.keyDown, dif_pos (by omega), State.pressed]
  simp only [h]

/-- A register value of 16 or more names none. -/
theorem keyDown_of_ge {s : State} {b : Byte} (h : 16 ≤ b.toNat) : s.keyDown b = false := by
  rw [State.keyDown, dif_neg (by omega)]

/-- Settles O53: both are the skip primitive, on the key's level and on its negation. -/
theorem keySkips : Obligations.KeySkips := by
  intro s x
  refine ⟨toNat_encodeXSub 0xE09E#16 x, toNat_encodeXSub 0xE0A1#16 x,
    ⟨_, exec_skp x s, onlyRegsAndPc_skipIf [] s _, fun k hk => ?_, fun hge => ?_⟩,
    ⟨_, exec_sknp x s, onlyRegsAndPc_skipIf [] s _, fun k hk => ?_, fun hge => ?_⟩⟩
  · rw [State.skipIf_pc, keyDown_of_lt hk]
  · rw [State.skipIf_pc, keyDown_of_ge hge, if_neg Bool.false_ne_true]
  · rw [State.skipIf_pc, keyDown_of_lt hk]
    cases s.keys[k.val] <;> rfl
  · rw [State.skipIf_pc, keyDown_of_ge hge, Bool.not_false, if_pos rfl]

end Sys2Proof.Machine
end

section
/-! PROOFS. The ALU (42_alu.md sections 3 and 4), Fx1E (43_index_memory.md section 1) and Fx18 (45_timers_keys.md section 4). -/

namespace Sys2Proof.Machine

/-- The frame of a result write and a flag write followed by pc + 2. -/
theorem onlyRegsAndPc_writeResultThenFlag_advance (s : State) (x : RegIdx) (b : Byte) (f : Bool) :
    OnlyRegsAndPc [x, vf] s (writeResultThenFlag x b f s).advance := by
  refine ⟨fun r hr => ?_, fun _ => rfl, rfl, ⟨rfl, rfl⟩, ⟨rfl, rfl⟩, ⟨rfl, rfl⟩, ⟨rfl, rfl⟩, rfl, rfl, rfl⟩
  obtain ⟨hx, hvf⟩ : r ≠ x ∧ r ≠ vf := by simpa using hr
  rw [State.reg_advance, reg_writeResultThenFlag, if_neg hvf, if_neg hx]

/-- The whole effect of the shape shared by 8xy4 to 8xyE: the result unless the flag overwrites it, the flag, pc + 2, and the
frame (42_alu.md R140). -/
theorem writeRegFlag_completes (x : RegIdx) (b : Byte) (f : Bool) (s : State) :
    ∃ t, writeRegFlag x b f s = .next t ∧ t.pc = s.pc + 2 ∧ OnlyRegsAndPc [x, 0xF#4] s t ∧
      (x ≠ 0xF#4 → t.reg x = b) ∧ (t.reg 0xF#4).toNat = if f then 1 else 0 := by
  refine ⟨_, rfl, rfl, onlyRegsAndPc_writeResultThenFlag_advance s x b f, fun hx => ?_, ?_⟩
  · rw [State.reg_advance, reg_writeResultThenFlag, if_neg (show x ≠ vf from hx), if_pos rfl]
  · rw [State.reg_advance, reg_writeResultThenFlag, if_pos (show 0xF#4 = vf from rfl), toNat_flagByte]

/-! ### The flags as numbers -/

theorem carryOut_eq_div (a b : Byte) : (if carryOut a b then 1 else 0) = (a.toNat + b.toNat) / 256 := by
  have ha : a.toNat < 256 := a.isLt
  have hb : b.toNat < 256 := b.isLt
  simp only [carryOut, decide_eq_true_eq]
  split <;> omega

theorem shiftedOutRight_eq_mod (b : Byte) : (if shiftedOutRight b then 1 else 0) = b.toNat % 2 := by
  rw [shiftedOutRight, BitVec.getLsbD, Nat.testBit_zero]
  simp only [decide_eq_true_eq]
  split <;> omega

theorem shiftedOutLeft_eq_div (b : Byte) : (if shiftedOutLeft b then 1 else 0) = b.toNat / 128 := by
  have hb : b.toNat < 256 := b.isLt
  rw [shiftedOutLeft, BitVec.getLsbD, Nat.testBit_eq_decide_div_mod_eq]
  simp only [decide_eq_true_eq]
  split <;> omega

/-! ### The results as numbers -/

theorem toNat_byte_sub (a b : Byte) : ((a - b).toNat : Int) = ((a.toNat : Int) - b.toNat) % 256 := by
  have hb : b.toNat < 256 := b.isLt
  rw [BitVec.toNat_sub]
  omega

theorem toNat_byte_shiftRight_one (b : Byte) : (b >>> 1).toNat = b.toNat / 2 := by
  rw [BitVec.toNat_ushiftRight, Nat.shiftRight_eq_div_pow]

theorem toNat_byte_shiftLeft_one (b : Byte) : (b <<< 1).toNat = b.toNat * 2 % 256 := by
  rw [BitVec.toNat_shiftLeft, Nat.shiftLeft_eq]

/-! ### The instructions -/

theorem exec_ldReg (x y : RegIdx) (s : State) : exec (.ldReg x y) s = writeReg x (s.reg y) s := rfl
theorem exec_or (x y : RegIdx) (s : State) : exec (.or x y) s = writeReg x (s.reg x ||| s.reg y) s := rfl
theorem exec_and (x y : RegIdx) (s : State) : exec (.and x y) s = writeReg x (s.reg x &&& s.reg y) s := rfl
theorem exec_xor (x y : RegIdx) (s : State) : exec (.xor x y) s = writeReg x (s.reg x ^^^ s.reg y) s := rfl

theorem exec_addReg (x y : RegIdx) (s : State) :
    exec (.addReg x y) s = writeRegFlag x (s.reg x + s.reg y) (carryOut (s.reg x) (s.reg y)) s := rfl

theorem exec_sub (x y : RegIdx) (s : State) :
    exec (.sub x y) s = writeRegFlag x (s.reg x - s.reg y) (borrowOut (s.reg x) (s.reg y)) s := rfl

theorem exec_subn (x y : RegIdx) (s : State) :
    exec (.subn x y) s = writeRegFlag x (s.reg y - s.reg x) (borrowOut (s.reg y) (s.reg x)) s := rfl

theorem exec_shr (x y : RegIdx) (s : State) : exec (.shr x y) s = execShrWith .vx x y s := rfl
theorem exec_shl (x y : RegIdx) (s : State) : exec (.shl x y) s = execShlWith .vx x y s := rfl

/-- Settles O35: each is one register write, and the operations on words are bit by bit. -/
theorem assignAndLogic : Obligations.AssignAndLogic := by
  intro s x y
  refine ⟨toNat_encodeXYSub 0x8000#16 x y, toNat_encodeXYSub 0x8001#16 x y, toNat_encodeXYSub 0x8002#16 x y,
    toNat_encodeXYSub 0x8003#16 x y, ?_, ?_, ?_, ?_⟩
  · rw [exec_ldReg]
    exact writeReg_completes x (s.reg y) s
  · rw [exec_or]
    obtain ⟨t, ht, hreg, hpc, hframe⟩ := writeReg_completes x (s.reg x ||| s.reg y) s
    exact ⟨t, ht, hpc, hframe, fun k => by rw [hreg, BitVec.getLsbD_or]⟩
  · rw [exec_and]
    obtain ⟨t, ht, hreg, hpc, hframe⟩ := writeReg_completes x (s.reg x &&& s.reg y) s
    exact ⟨t, ht, hpc, hframe, fun k => by rw [hreg, BitVec.getLsbD_and]⟩
  · rw [exec_xor]
    obtain ⟨t, ht, hreg, hpc, hframe⟩ := writeReg_completes x (s.reg x ^^^ s.reg y) s
    exact ⟨t, ht, hpc, hframe, fun k => by rw [hreg, BitVec.getLsbD_xor]⟩

/-- Settles O36: the sum of two bytes and its carry. -/
theorem addWithCarry : Obligations.AddWithCarry := by
  intro s x y
  refine ⟨toNat_encodeXYSub 0x8004#16 x y, ?_⟩
  rw [exec_addReg]
  obtain ⟨t, ht, hpc, hframe, hreg, hflag⟩ :=
    writeRegFlag_completes x (s.reg x + s.reg y) (carryOut (s.reg x) (s.reg y)) s
  exact ⟨t, ht, hpc, hframe, fun hx => by rw [hreg hx, BitVec.toNat_add], by rw [hflag, carryOut_eq_div]⟩

/-- A difference of two bytes with its borrow, written to `x` and VF: the shape of 8xy5 and 8xy7. -/
theorem writeDifference_completes (x : RegIdx) (a b : Byte) (s : State) :
    ∃ t, writeRegFlag x (a - b) (borrowOut a b) s = .next t ∧ t.pc = s.pc + 2 ∧ OnlyRegsAndPc [x, 0xF#4] s t ∧
      (x ≠ 0xF#4 → ((t.reg x).toNat : Int) = ((a.toNat : Int) - b.toNat) % 256) ∧
      (t.reg 0xF#4).toNat = if a.toNat < b.toNat then 1 else 0 := by
  obtain ⟨t, ht, hpc, hframe, hreg, hflag⟩ := writeRegFlag_completes x (a - b) (borrowOut a b) s
  refine ⟨t, ht, hpc, hframe, fun hx => by rw [hreg hx, toNat_byte_sub], ?_⟩
  rw [hflag, borrowOut]
  simp only [decide_eq_true_eq]

/-- Settles O37: both are a difference with its borrow, the operands exchanged. -/
theorem subtractWithBorrow : Obligations.SubtractWithBorrow := fun s x y =>
  ⟨toNat_encodeXYSub 0x8005#16 x y, toNat_encodeXYSub 0x8007#16 x y,
    writeDifference_completes x (s.reg x) (s.reg y) s, writeDifference_completes x (s.reg y) (s.reg x) s⟩

/-- 8xy6 under either SHIFT_SOURCE halves its operand and reports the bit shifted out. -/
theorem execShrWith_completes (src : ShiftSource) (x y : RegIdx) (s : State) :
    ∃ t, execShrWith src x y s = .next t ∧ t.pc = s.pc + 2 ∧ OnlyRegsAndPc [x, 0xF#4] s t ∧
      (x ≠ 0xF#4 → (t.reg x).toNat = (s.shiftOperand src x y).toNat / 2) ∧
      (t.reg 0xF#4).toNat = (s.shiftOperand src x y).toNat % 2 := by
  obtain ⟨t, ht, hpc, hframe, hreg, hflag⟩ :=
    writeRegFlag_completes x (s.shiftOperand src x y >>> 1) (shiftedOutRight (s.shiftOperand src x y)) s
  exact ⟨t, ht, hpc, hframe, fun hx => by rw [hreg hx, toNat_byte_shiftRight_one], by rw [hflag, shiftedOutRight_eq_mod]⟩

/-- 8xyE under either SHIFT_SOURCE doubles its operand mod 256 and reports the bit shifted out. -/
theorem execShlWith_completes (src : ShiftSource) (x y : RegIdx) (s : State) :
    ∃ t, execShlWith src x y s = .next t ∧ t.pc = s.pc + 2 ∧ OnlyRegsAndPc [x, 0xF#4] s t ∧
      (x ≠ 0xF#4 → (t.reg x).toNat = (s.shiftOperand src x y).toNat * 2 % 256) ∧
      (t.reg 0xF#4).toNat = (s.shiftOperand src x y).toNat / 128 := by
  obtain ⟨t, ht, hpc, hframe, hreg, hflag⟩ :=
    writeRegFlag_completes x (s.shiftOperand src x y <<< 1) (shiftedOutLeft (s.shiftOperand src x y)) s
  exact ⟨t, ht, hpc, hframe, fun hx => by rw [hreg hx, toNat_byte_shiftLeft_one], by rw [hflag, shiftedOutLeft_eq_div]⟩

/-- Settles O38: the shifts with SHIFT_SOURCE = VX. -/
theorem shiftsOfVx : Obligations.ShiftsOfVx := fun s x y =>
  ⟨toNat_encodeXYSub 0x8006#16 x y, toNat_encodeXYSub 0x800E#16 x y,
    execShrWith_completes .vx x y s, execShlWith_completes .vx x y s⟩

/-- Settles O39: the shifts with SHIFT_SOURCE = VY; with x = y the two operands are one register. -/
theorem shiftsOfVy : Obligations.ShiftsOfVy := fun s x y =>
  ⟨execShrWith_completes .vy x y s, execShlWith_completes .vy x y s, rfl, rfl⟩

/-- Settles O40: one register write of the byte AND nn, from the state with the byte taken. -/
theorem randomByteIsMasked : Obligations.RandomByteIsMasked := by
  intro s x nn
  obtain ⟨t, ht, hreg, hpc, hregs, hmem, hi, hstack, htimers, hdisplay, hrun, hkeys, hsupply, hdraws⟩ :=
    writeReg_completes x (s.randByte &&& nn) s.takeRand
  refine ⟨toNat_encodeXByte 0xC000#16 x nn, t, ht, hpc, hregs, hmem, hi, hstack, htimers, hdisplay, hrun, hkeys, hdraws, hsupply,
    fun r rest hr => ?_, fun k hk => ?_⟩
  · rw [hreg, State.randByte, hr]
  · rw [hreg, BitVec.getLsbD_and, hk, Bool.and_false]

theorem exec_addIVx (x : RegIdx) (s : State) : exec (.addIVx x) s = .next (s.setI (s.i + zextByte (s.reg x))).advance := rfl

/-- Settles O42: one write of I, the sum mod 2^16. -/
theorem addToIndexWraps : Obligations.AddToIndexWraps := by
  intro s x
  refine ⟨toNat_encodeXSub 0xF01E#16 x, ?_⟩
  rw [exec_addIVx]
  exact setI_advance_completes s (by rw [BitVec.toNat_add, toNat_zextByte])

theorem exec_ldStVx (x : RegIdx) (s : State) : exec (.ldStVx x) s = .next (s.setSt (s.reg x)).advance := rfl

/-- The frame of one write of ST followed by pc + 2. -/
theorem onlyTimersAndPc_setSt_advance (s : State) (b : Byte) : OnlyTimersAndPc s (s.setSt b).advance :=
  ⟨fun _ _ => rfl, fun _ => rfl, rfl, ⟨rfl, rfl⟩, ⟨rfl, rfl⟩, ⟨rfl, rfl⟩, rfl, ⟨rfl, rfl⟩⟩

/-- Settles O56: the write is one write of ST with no report, and the tick after it sees the new value. -/
theorem soundTimerWritten : Obligations.SoundTimerWritten := by
  intro s x
  refine ⟨toNat_encodeXSub 0xF018#16 x, ?_, fun hx => ?_⟩
  · exact ⟨_, exec_ldStVx x s, rfl, rfl, rfl, onlyTimersAndPc_setSt_advance s (s.reg x)⟩
  · refine ⟨_, step_of_executes hx (exec_ldStVx x (beginStep s)) rfl, toNat_tickTimer (s.reg x), rfl, ?_⟩
    exact tick_result_of_ok (s := ((beginStep s).setSt (s.reg x)).advance) rfl

end Sys2Proof.Machine
end

section
/-! PROOFS. Memory and the instructions that transfer it, under either DATA_OOB_POLICY (20_memory.md, 43_index_memory.md). -/

namespace Sys2Proof.Machine

/-! ### Canonical memories -/

namespace Memory

/-- A listed cell differs from what its address reads as when unlisted. -/
theorem read_head_ne_unlisted {lo b : Nat} {v : Byte} {m : Memory} (h : wfFrom lo ((b, v) :: m) = true) :
    read ((b, v) :: m) b ≠ unlisted b := by
  simp only [wfFrom, Bool.and_eq_true, decide_eq_true_eq] at h
  obtain ⟨⟨_, hne⟩, _⟩ := h
  rwa [read_cons, if_pos rfl]

/-- Below its first cell a memory lists nothing. -/
theorem read_below_head {lo c a : Nat} {w : Byte} {m : Memory} (h : wfFrom lo ((c, w) :: m) = true) (ha : a < c) :
    read ((c, w) :: m) a = unlisted a := by
  simp only [wfFrom, Bool.and_eq_true, decide_eq_true_eq] at h
  obtain ⟨_, htail⟩ := h
  rw [read_cons, if_neg (by omega), read_below m htail a (by omega)]

theorem wfFrom_tail {lo b : Nat} {v : Byte} {m : Memory} (h : wfFrom lo ((b, v) :: m) = true) : wfFrom (b + 1) m = true := by
  rw [wfFrom, Bool.and_eq_true] at h
  exact h.2

/-- Canonical memories that read alike are equal: their first cells are at one address, the lowest that is not as unlisted. -/
theorem eq_of_read_eq {lo : Nat} {m m' : Memory} (h : wfFrom lo m = true) (h' : wfFrom lo m' = true)
    (hread : ∀ a, m.read a = m'.read a) : m = m' := by
  induction m generalizing lo m' with
  | nil =>
    cases m' with
    | nil => rfl
    | cons c m' =>
      obtain ⟨c, w⟩ := c
      exact absurd (hread c).symm (read_head_ne_unlisted h')
  | cons b m ih =>
    obtain ⟨b, v⟩ := b
    cases m' with
    | nil => exact absurd (hread b) (read_head_ne_unlisted h)
    | cons c m' =>
      obtain ⟨c, w⟩ := c
      rcases lt_trichotomy b c with hlt | rfl | hlt
      · exact absurd ((hread b).trans (read_below_head h' hlt)) (read_head_ne_unlisted h)
      · have hb := hread b
        rw [read_cons, read_cons, if_pos rfl, if_pos rfl] at hb
        rw [hb, ih (wfFrom_tail h) (wfFrom_tail h') fun a => ?_]
        by_cases hab : b = a
        · rw [read_below m (wfFrom_tail h) a (by omega), read_below m' (wfFrom_tail h') a (by omega)]
        · have ha := hread a
          rwa [read_cons, read_cons, if_neg hab, if_neg hab] at ha
      · exact absurd ((hread c).symm.trans (read_below_head h hlt)) (read_head_ne_unlisted h')

end Memory

/-- Settles O26: canonical memories are compared cell by cell from the lowest address. -/
theorem canonicalMemoriesAreEqualData : Obligations.CanonicalMemoriesAreEqualData :=
  fun _ _ h h' hread => Memory.eq_of_read_eq h h' hread

/-! ### A run of byte stores -/

section
variable {bs : List Byte} {m : Memory} {a : Nat} (hm : m.wf = true)
include hm

theorem read_storeBytes_at (hb : a + bs.length ≤ 4096) {k : Nat} (hk : k < bs.length) :
    (storeBytes .reject m a bs).read (a + k) = bs[k] := by
  rw [read_storeBytes bs m a _ hm hb, if_pos (by omega), Nat.add_sub_cancel_left, List.getD_eq_getElem _ _ hk]

theorem read_storeBytes_outside (hb : a + bs.length ≤ 4096) {c : Nat} (hc : c < a ∨ a + bs.length ≤ c) :
    (storeBytes .reject m a bs).read c = m.read c := by
  rw [read_storeBytes bs m a c hm hb]
  split
  · exact List.getD_eq_default _ _ (by omega)
  · rfl

theorem read_storeBytes_clamp_at {k : Nat} (hk : k < bs.length) (hb : a + k < 0xFFF) :
    (storeBytes .clamp m a bs).read (a + k) = bs[k] := by
  rw [read_storeBytes_clamp bs m a _ hm, if_pos hb, if_pos (by omega), Nat.add_sub_cancel_left, List.getD_eq_getElem _ _ hk]

/-- The last store stays, at its own address or at 0xFFF (assumption 34). -/
theorem read_storeBytes_clamp_last {n : Nat} (hn : bs.length = n + 1) :
    (storeBytes .clamp m a bs).read (min (a + n) 0xFFF) = bs[n] := by
  by_cases hb : a + n < 0xFFF
  · rw [min_eq_left (by omega), read_storeBytes_clamp_at hm (by omega) hb]
  · rw [min_eq_right (by omega), read_storeBytes_clamp bs m a _ hm, if_neg (by omega), if_pos ⟨rfl, by omega⟩,
      List.getLastD_eq_getLast?, List.getLast?_eq_getElem?]
    simp [hn]

theorem read_storeBytes_clamp_outside {c : Nat} (hc : ∀ k < bs.length, c ≠ min (a + k) 0xFFF) :
    (storeBytes .clamp m a bs).read c = m.read c := by
  by_cases hbs : bs = []
  · rw [hbs, storeBytes]
  have hpos := List.length_pos_of_ne_nil hbs
  rw [read_storeBytes_clamp bs m a c hm]
  split_ifs with hlt hle hlast
  · refine List.getD_eq_default _ _ (not_lt.1 fun hk => hc (c - a) hk ?_)
    omega
  · rfl
  · exact (hc (bs.length - 1) (by omega) (by omega)).elim
  · rfl

end

/-! ### The check of the data addresses -/

/-- Accesses that lie within memory are done. -/
theorem withCheckedData_of_le {base count : Nat} (h : count = 0 ∨ base + count ≤ 0x1000) (ins : Instr) (s t : State) :
    withCheckedData .reject (dataAddrs base count) ins s t = .next t := by
  rw [withCheckedData, checkData_dataAddrs, if_pos h]

/-- Accesses of which one lies beyond memory are the fatal entry alone, with the lowest such address (60_exceptions.md R215). -/
theorem withCheckedData_of_gt {base count : Nat} (hcount : count ≠ 0) (h : 0x1000 < base + count) (ins : Instr) (s t : State) :
    ∃ u, withCheckedData .reject (dataAddrs base count) ins s t = .next u ∧
      FatalEntry (.outOfBoundsAccess s.pc (encode ins) (max base 0x1000)) s u := by
  refine ⟨_, ?_, fatalEntry_raiseFatal _ s⟩
  rw [withCheckedData, checkData_dataAddrs, if_neg (by omega)]

theorem exec_ldBVx (x : RegIdx) (s : State) : exec (.ldBVx x) s = execLdBVxWith .reject x s := rfl
theorem exec_ldMemVx (x : RegIdx) (s : State) : exec (.ldMemVx x) s = execLdMemVxWith .reject x s := rfl
theorem exec_ldVxMem (x : RegIdx) (s : State) : exec (.ldVxMem x) s = execLdVxMemWith .reject x s := rfl
theorem exec_drw (x y : RegIdx) (n : Nibble) (s : State) : exec (.drw x y n) s = execDrwWith .reject x y n s := rfl

/-- Settles O46: each of the four checks its addresses before any access, and Dxyn with n = 0 has none. -/
theorem outOfBoundsAccessRaised : Obligations.OutOfBoundsAccessRaised := by
  intro s x y n
  refine ⟨fun h => ?_, fun h => ?_, fun h => ?_, fun hn h => ?_, fun hn => ?_⟩
  · exact withCheckedData_of_gt (by decide) (by omega) (.ldBVx x) s _
  · exact withCheckedData_of_gt (Nat.succ_ne_zero _) (by omega) (.ldMemVx x) s _
  · exact withCheckedData_of_gt (Nat.succ_ne_zero _) (by omega) (.ldVxMem x) s _
  · exact withCheckedData_of_gt (by omega) (by omega) (.drw x y n) s _
  · rw [exec_drw, execDrwWith, withCheckedData_of_le (.inl hn)]
    exact ⟨_, rfl, rfl, rfl⟩

/-! ### Fx33 and Fx55 -/

/-- Everything but memory and pc is unchanged: the frame of Fx33 and Fx55. -/
def OnlyMemoryAndPc (s t : State) : Prop :=
  RegsKept [] s t ∧ IndexKept s t ∧ StackKept s t ∧ TimersKept s t ∧ DisplayKept s t ∧ RunKept s t ∧ KeysKept s t ∧ RandKept s t

theorem onlyMemoryAndPc_setMem_advance (s : State) (m : Memory) : OnlyMemoryAndPc s (s.setMem m).advance :=
  ⟨fun _ _ => rfl, rfl, ⟨rfl, rfl⟩, ⟨rfl, rfl⟩, ⟨rfl, rfl⟩, ⟨rfl, rfl⟩, rfl, ⟨rfl, rfl⟩⟩

theorem length_bcdDigits (b : Byte) : (bcdDigits b).length = 3 := rfl

/-- The digits as numbers (43_index_memory.md R163). -/
theorem toNat_bcdDigits (b : Byte) :
    ((bcdDigits b)[0]'(by simp [bcdDigits])).toNat = b.toNat / 100 ∧
    ((bcdDigits b)[1]'(by simp [bcdDigits])).toNat = b.toNat / 10 % 10 ∧
    ((bcdDigits b)[2]'(by simp [bcdDigits])).toNat = b.toNat % 10 := by
  have hb : b.toNat < 256 := b.isLt
  refine ⟨?_, ?_, ?_⟩ <;> exact (BitVec.toNat_ofNat _ _).trans (Nat.mod_eq_of_lt (by omega))

/-- The k-th byte that Fx55 stores is Vk. -/
theorem getElem_regsUpTo (s : State) {x k : RegIdx} (h : k.toNat < (s.regsUpTo x).length) : (s.regsUpTo x)[k.toNat] = s.reg k := by
  simp [State.regsUpTo]

/-- Settles O43: the three digits are stored one after another from I on. -/
theorem decimalDigitsStored : Obligations.DecimalDigitsStored := by
  intro s x
  refine ⟨toNat_encodeXSub 0xF033#16 x, fun hm hi => ?_⟩
  rw [exec_ldBVx, execLdBVxWith, withCheckedData_of_le (.inr (by omega))]
  have hlen := length_bcdDigits (s.reg x)
  have hb : s.i.toNat + (bcdDigits (s.reg x)).length ≤ 4096 := by omega
  have hdigit (k : Nat) (hk : k < (bcdDigits (s.reg x)).length) := congrArg BitVec.toNat (read_storeBytes_at hm hb hk)
  obtain ⟨hhundreds, htens, hunits⟩ := toNat_bcdDigits (s.reg x)
  refine ⟨_, rfl, rfl, ?_, ?_, ?_, fun a ha => read_storeBytes_outside hm hb ha, onlyMemoryAndPc_setMem_advance s _⟩
  · exact (hdigit 0 (by omega)).trans hhundreds
  · exact (hdigit 1 (by omega)).trans htens
  · exact (hdigit 2 (by omega)).trans hunits

/-- Settles O44: the registers are stored one after another from I on. -/
theorem registersDumped : Obligations.RegistersDumped := by
  intro s x
  refine ⟨toNat_encodeXSub 0xF055#16 x, fun hm hi => ?_⟩
  rw [exec_ldMemVx, execLdMemVxWith, withCheckedData_of_le (.inr (by omega))]
  have hlen := length_regsUpTo s x
  have hb : s.i.toNat + (s.regsUpTo x).length ≤ 4096 := by omega
  refine ⟨_, rfl, rfl, fun k hk => ?_, fun a ha => read_storeBytes_outside hm hb (hlen ▸ ha), onlyMemoryAndPc_setMem_advance s _⟩
  exact (read_storeBytes_at hm hb (by omega)).trans (getElem_regsUpTo s (by omega))

/-! ### Fx65 -/

/-- Everything but the registers and pc is unchanged: the frame of Fx65, whose registers are given one by one. -/
def OnlyRegistersAndPc (s t : State) : Prop :=
  MemoryKept s t ∧ IndexKept s t ∧ StackKept s t ∧ TimersKept s t ∧ DisplayKept s t ∧ RunKept s t ∧ KeysKept s t ∧ RandKept s t

theorem onlyRegistersAndPc_loadRegs_advance (p : DataOobPolicy) (count : Nat) (s : State) :
    OnlyRegistersAndPc s (loadRegs p count s).advance := by
  rw [loadRegs_eq]
  exact ⟨fun _ => rfl, rfl, ⟨rfl, rfl⟩, ⟨rfl, rfl⟩, ⟨rfl, rfl⟩, ⟨rfl, rfl⟩, rfl, ⟨rfl, rfl⟩⟩

/-- The whole effect of Fx65's loop followed by pc + 2, under either DATA_OOB_POLICY. -/
theorem loadRegs_advance_completes (p : DataOobPolicy) (x : RegIdx) (s : State) :
    ∃ t, (.next (loadRegs p (x.toNat + 1) s).advance : Answer) = .next t ∧ t.pc = s.pc + 2 ∧
      (∀ k : RegIdx, t.reg k = if k.toNat ≤ x.toNat then s.mem.read (dataAddr p (s.i.toNat + k.toNat)) else s.reg k) ∧
      OnlyRegistersAndPc s t := by
  refine ⟨_, rfl, ?_, fun k => ?_, onlyRegistersAndPc_loadRegs_advance p _ s⟩
  · rw [loadRegs_eq]
    rfl
  · rw [State.reg_advance, reg_loadRegs p _ (by omega)]
    simp only [Nat.lt_succ_iff]

/-- Settles O45: the loop reads one byte for each register up to Vx. -/
theorem registersLoaded : Obligations.RegistersLoaded := by
  intro s x
  refine ⟨toNat_encodeXSub 0xF065#16 x, fun hi => ?_⟩
  rw [exec_ldVxMem, execLdVxMemWith, withCheckedData_of_le (.inr (by omega))]
  exact loadRegs_advance_completes .reject x s

/-- Settles O48: the load reads the bytes that the dump stored. -/
theorem dumpLoadRoundTrip : Obligations.DumpLoadRoundTrip := by
  intro s t u x hm hi hdump hui humem
  obtain ⟨_, hdumped⟩ := registersDumped s x
  obtain ⟨t', hdump', _, hstored, _, _, hti, _⟩ := hdumped hm hi
  cases hdump'.symm.trans hdump
  have hu : u.i = s.i := hui.trans hti
  obtain ⟨_, hloaded⟩ := registersLoaded u x
  obtain ⟨w, hload, _, hreg, _⟩ := hloaded (hu ▸ hi)
  refine ⟨w, hload, fun k hk => ?_⟩
  rw [hreg k, if_pos hk, hu, humem, hstored k hk]

/-! ### Stores over the next instruction -/

theorem toNat_wordOfBytes (lower higher : Byte) : (wordOfBytes lower higher).toNat = lower.toNat * 256 + higher.toNat := by
  rw [wordOfBytes, BitVec.toNat_append, ← Nat.shiftLeft_add_eq_or_of_lt higher.isLt, Nat.shiftLeft_eq]

/-- The high byte of the fetched word is the byte at pc. -/
theorem fetchWord_high (s : State) : (fetchWord s).toNat / 256 = (s.mem.read s.pc.toNat).toNat := by
  have hlow : (s.mem.read (s.pc.toNat + 1)).toNat < 256 := (s.mem.read _).isLt
  rw [fetchWord, toNat_wordOfBytes]
  omega

/-- The low byte of the fetched word is the byte at pc + 1. -/
theorem fetchWord_low (s : State) : (fetchWord s).toNat % 256 = (s.mem.read (s.pc.toNat + 1)).toNat := by
  have hlow : (s.mem.read (s.pc.toNat + 1)).toNat < 256 := (s.mem.read _).isLt
  rw [fetchWord, toNat_wordOfBytes]
  omega

/-- Settles O49: the next fetch reads the same memory, its high byte at pc and its low byte at pc + 1. -/
theorem storeIsSeenByNextFetch : Obligations.StoreIsSeenByNextFetch := by
  intro s x hm
  constructor
  · intro hi
    obtain ⟨_, hstored⟩ := decimalDigitsStored s x
    obtain ⟨t, ht, hpc, hhundreds, htens, hunits, _⟩ := hstored hm hi
    refine ⟨t, ht, hpc, fun h => ?_, fun h => ?_, fun h => ?_, fun h => ?_, fun h => ?_, fun h => ?_⟩
    · rw [fetchWord_high, ← h, hhundreds]
    · rw [fetchWord_high, ← h, htens]
    · rw [fetchWord_high, ← h, hunits]
    · rw [fetchWord_low, ← h, hhundreds]
    · rw [fetchWord_low, ← h, htens]
    · rw [fetchWord_low, ← h, hunits]
  · intro hi
    obtain ⟨_, hdumped⟩ := registersDumped s x
    obtain ⟨t, ht, hpc, hstored, _⟩ := hdumped hm hi
    refine ⟨t, ht, hpc, fun k hk => ⟨fun h => ?_, fun h => ?_⟩⟩
    · rw [fetchWord_high, ← h, hstored k hk]
    · rw [fetchWord_low, ← h, hstored k hk]

end Sys2Proof.Machine
end

section
/-! PROOFS. Dxyn under either DATA_OOB_POLICY (44_display.md), and the policy CLAMP (20_memory.md section 3). -/

namespace Sys2Proof.Machine

/-! ### The pixels under a sprite -/

theorem cellIndex_eq_iff (px : Fin 64) (py : Fin 32) (x y : Nat) :
    cellIndex px.val py.val = cellIndex x y ↔ px.val = x % 64 ∧ py.val = y % 32 := by
  constructor
  · intro h
    obtain ⟨hx, hy⟩ := cellIndex_inj h
    rw [Nat.mod_eq_of_lt px.isLt] at hx
    rw [Nat.mod_eq_of_lt py.isLt] at hy
    exact ⟨hx, hy⟩
  · rintro ⟨hx, hy⟩
    apply Fin.ext
    simp only [cellIndex]
    omega

/-- Every cell of the framebuffer is a pixel of the screen (10_state.md R31). -/
theorem exists_pixel (k : Fin 2048) : ∃ (px : Fin 64) (py : Fin 32), k = cellIndex px.val py.val := by
  refine ⟨⟨k.val % 64, by omega⟩, ⟨k.val / 64, by omega⟩, Fin.ext ?_⟩
  simp only [cellIndex]
  omega

theorem length_spriteBytes (p : DataOobPolicy) (m : Memory) (base n : Nat) : (spriteBytes p m base n).length = n := by
  simp [spriteBytes, dataAddrs]

theorem getElem?_spriteBytes (p : DataOobPolicy) (m : Memory) (base n r : Nat) (b : Byte) :
    (spriteBytes p m base n)[r]? = some b ↔ r < n ∧ m.read (dataAddr p (base + r)) = b := by
  rw [List.getElem?_eq_some_iff]
  simp [spriteBytes, dataAddrs]

section
variable (p : DataOobPolicy) (s : State) (x y : RegIdx) (n : Nibble)

/-- The cells that Dxyn hits. -/
def drwCells : List (Fin 2048) :=
  spriteCells (s.reg x).toNat (s.reg y).toNat (spriteBytes p s.mem s.i.toNat n.toNat)

theorem drawn_eq_drawCells : drawn p x y n s = drawCells s.gfx (drwCells p s x y n) := rfl

/-- They are the pixels that the sprite covers, each coordinate wrapped (44_display.md R181 to R183). -/
theorem mem_drwCells (px : Fin 64) (py : Fin 32) :
    cellIndex px.val py.val ∈ drwCells p s x y n ↔ SpriteCoversVia (dataAddr p) s x y n px.val py.val := by
  simp only [drwCells, mem_spriteCells, mem_rowCells, getElem?_spriteBytes, cellIndex_eq_iff, SpriteCoversVia, RowCovers]
  constructor
  · rintro ⟨r, b, ⟨hr, rfl⟩, c, hc, hbit, hpx, hpy⟩
    exact ⟨r, hr, hpy, c, hc, hbit, hpx⟩
  · rintro ⟨r, hr, hpy, c, hc, hbit, hpx⟩
    exact ⟨r, _, ⟨hr, rfl⟩, c, hc, hbit, hpx, hpy⟩

/-- A sprite of at most 15 rows hits no cell twice. -/
theorem nodup_drwCells : (drwCells p s x y n).Nodup := by
  refine nodup_spriteCells _ _ _ ?_
  rw [length_spriteBytes]
  omega

/-- A set sprite bit hits a pixel that is 1. -/
def Collides (place : Nat → Nat) : Prop :=
  ∃ (px : Fin 64) (py : Fin 32),
    SpriteCoversVia place s x y n px.val py.val ∧ s.gfx.get (cellIndex px.val py.val) = 0x01#8

theorem drawn_collision : (drawn p x y n s).2 = true ↔ Collides s x y n (dataAddr p) := by
  rw [drawn_eq_drawCells, collision_drawCells _ _ (nodup_drwCells ..)]
  constructor
  · rintro ⟨k, hk, hon⟩
    obtain ⟨px, py, rfl⟩ := exists_pixel k
    exact ⟨px, py, (mem_drwCells ..).1 hk, hon⟩
  · rintro ⟨px, py, hcov, hon⟩
    exact ⟨_, (mem_drwCells ..).2 hcov, hon⟩

theorem drawn_get (px : Fin 64) (py : Fin 32) :
    (SpriteCoversVia (dataAddr p) s x y n px.val py.val →
      (drawn p x y n s).1.get (cellIndex px.val py.val) = s.gfx.get (cellIndex px.val py.val) ^^^ 0x01#8) ∧
    (¬ SpriteCoversVia (dataAddr p) s x y n px.val py.val →
      (drawn p x y n s).1.get (cellIndex px.val py.val) = s.gfx.get (cellIndex px.val py.val)) := by
  rw [← mem_drwCells, drawn_eq_drawCells,
    get_drawCells _ _ (nodup_drwCells ..)]
  exact ⟨fun h => if_pos h, fun h => if_neg h⟩

/-- The state Dxyn leads to when it raises no error. -/
def drwState : State := ((s.redraw (drawn p x y n s).1).setReg vf (flagByte (drawn p x y n s).2)).advance

/-- Everything but the display, VF and pc is unchanged: the frame of Dxyn. -/
def OnlyDisplayFlagAndPc (s t : State) : Prop :=
  RegsKept [0xF#4] s t ∧ MemoryKept s t ∧ IndexKept s t ∧ StackKept s t ∧ TimersKept s t ∧ RunKept s t ∧ KeysKept s t ∧
    RandKept s t

theorem onlyDisplayFlagAndPc_drwState : OnlyDisplayFlagAndPc s (drwState p s x y n) := by
  refine ⟨fun r hr => ?_, fun _ => rfl, rfl, ⟨rfl, rfl⟩, ⟨rfl, rfl⟩, ⟨rfl, rfl⟩, rfl, ⟨rfl, rfl⟩⟩
  have hvf : r ≠ vf := List.ne_of_not_mem_cons hr
  rw [drwState, State.reg_advance, State.reg_setReg, if_neg hvf, State.reg_redraw]

theorem drwState_flag :
    (Collides s x y n (dataAddr p) → (drwState p s x y n).reg 0xF#4 = 0x01#8) ∧
    (¬ Collides s x y n (dataAddr p) → (drwState p s x y n).reg 0xF#4 = 0x00#8) := by
  have hvf : (drwState p s x y n).reg 0xF#4 = flagByte (drawn p x y n s).2 := by
    rw [drwState, State.reg_advance]
    exact State.reg_setReg_same ..
  rw [hvf, ← drawn_collision]
  exact ⟨fun h => by rw [h]; rfl, fun h => by rw [Bool.not_eq_true] at h; rw [h]; rfl⟩

end

/-- Dxyn completes when it has no address beyond memory. -/
theorem exec_drw_of_le (s : State) (x y : RegIdx) {n : Nibble} (h : n.toNat = 0 ∨ s.i.toNat + n.toNat ≤ 0x1000) :
    exec (.drw x y n) s = .next (drwState .reject s x y n) :=
  withCheckedData_of_le h (.drw x y n) s _

/-- Settles O51: the cells of the sprite are distinct, so each is inverted once. -/
theorem spriteInvertsCoveredPixels : Obligations.SpriteInvertsCoveredPixels := by
  intro s x y n
  exact ⟨toNat_encodeXYN 0xD000#16 x y n, fun h => ⟨_, exec_drw_of_le s x y h, fun px py => drawn_get .reject s x y n px py,
    rfl, rfl, onlyDisplayFlagAndPc_drwState .reject s x y n⟩⟩

/-- Settles O52: the collision of distinct cells is decided on the old framebuffer. -/
theorem collisionFlag : Obligations.CollisionFlag := by
  intro s x y n h
  obtain ⟨hhit, hmiss⟩ := drwState_flag .reject s x y n
  refine ⟨_, exec_drw_of_le s x y h, hhit, hmiss, fun px py hcov => ?_⟩
  obtain ⟨_, hkept⟩ := drawn_get .reject s x y n px py
  exact hkept hcov

/-! ### CLAMP -/

/-- Under CLAMP no data address raises an error. -/
theorem withCheckedData_clamp (addrs : List Nat) (ins : Instr) (s t : State) :
    withCheckedData .clamp addrs ins s t = .next t := rfl

/-- Settles O47: the rules of the stores, the loads and the sprite with every address capped at 0xFFF. -/
theorem clampPolicyUsesLastByte : Obligations.ClampPolicyUsesLastByte := by
  intro s x y n
  refine ⟨fun hm => ?_, fun hm => ?_, loadRegs_advance_completes .clamp x s, ?_⟩
  · have hlen := length_bcdDigits (s.reg x)
    obtain ⟨hhundreds, htens, hunits⟩ := toNat_bcdDigits (s.reg x)
    refine ⟨_, withCheckedData_clamp .., rfl, fun h => ?_, fun h => ?_, ?_,
      fun a ha => read_storeBytes_clamp_outside hm (hlen ▸ ha), onlyMemoryAndPc_setMem_advance s _⟩
    · exact (congrArg BitVec.toNat (read_storeBytes_clamp_at hm (k := 0) (by omega) h)).trans hhundreds
    · exact (congrArg BitVec.toNat (read_storeBytes_clamp_at hm (k := 1) (by omega) h)).trans htens
    · exact (congrArg BitVec.toNat (read_storeBytes_clamp_last hm hlen)).trans hunits
  · have hlen := length_regsUpTo s x
    refine ⟨_, withCheckedData_clamp .., rfl, fun k hk h => ?_, ?_,
      fun a ha => read_storeBytes_clamp_outside hm fun k hk => ha k (by omega), onlyMemoryAndPc_setMem_advance s _⟩
    · exact (read_storeBytes_clamp_at hm (by omega) h).trans (getElem_regsUpTo s (by omega))
    · exact (read_storeBytes_clamp_last hm hlen).trans (getElem_regsUpTo s (by omega))
  · obtain ⟨hhit, hmiss⟩ := drwState_flag .clamp s x y n
    exact ⟨drwState .clamp s x y n, withCheckedData_clamp .., rfl, rfl, fun px py => drawn_get .clamp s x y n px py, hhit, hmiss,
      onlyDisplayFlagAndPc_drwState .clamp s x y n⟩

end Sys2Proof.Machine
end

section
/-! PROOFS. Creation, reset and load (70_reset_and_hazards.md sections 1 and 2). -/

namespace Sys2Proof.Machine

/-- Within a list, the element and its default form are one. -/
theorem some_getD_of_lt {l : List Byte} {k : Nat} (h : k < l.length) (b : Byte) : some (l.getD k b) = l[k]? := by
  rw [List.getD_eq_getElem _ _ h, List.getElem?_eq_getElem h]

theorem length_fontBytes : fontBytes.length = 80 := rfl

/-- The reset memory lists nothing, so it reads as the default FONT, then zeroes. -/
theorem read_reset (a : Nat) : State.reset.mem.read a = fontBytes.getD a 0x00#8 := rfl

/-- Settles O58: the created state's fields are its reset values, and reset writes every element but the inputs. -/
theorem resetRestoresCreatedState : Obligations.ResetRestoresCreatedState := by
  refine ⟨⟨fun k hk => ?_, fun k hk _ => ?_, fun x => ?_, rfl, rfl, fun k => ?_, rfl, rfl, rfl, Gfx.get_blank, rfl, rfl⟩,
    fun s => ⟨rfl, ⟨rfl, rfl⟩, ?_⟩⟩
  · rw [read_reset]
    exact some_getD_of_lt (length_fontBytes ▸ hk) 0x00#8
  · rw [read_reset, List.getD_eq_default _ _ (length_fontBytes ▸ hk)]
  · simp [State.reg, State.reset]
  · simp [State.reset]
  · rw [hostReset, hostResetWith, created_font]

theorem created_mem (table : Font) : (created table).mem = fontMemory table := rfl

/-- The font region of a created machine (70_reset_and_hazards.md R241). -/
theorem read_created_font (table : Font) {k : Nat} (h : k < 80) : (created table).mem.read k = table[k] := by
  rw [created_mem, read_fontMemory, List.getD_eq_getElem _ _ (by simpa using h), Vector.getElem_toList]

/-- Settles O59: the font is copied to 0 to 79, and glyph d starts at 5 d. -/
theorem fontIsAParameter : Obligations.FontIsAParameter := by
  refine ⟨fun table => ⟨fun k hk => read_created_font table hk, fun k hk _ => ?_, rfl, fun s => rfl, fun s x d r hd hm => ?_⟩,
    created_font, fun s => rfl⟩
  · rw [created_mem, read_fontMemory, List.getD_eq_default _ _ (by simpa using hk)]
  · refine ⟨_, exec_ldFVx x s, ?_⟩
    have hi : (zextByte (s.reg x) * 5#16).toNat + r.val = 5 * d.val + r.val := by
      rw [toNat_zextByte_mul_five, hd, Nat.mul_comm]
    rw [State.advance_mem, State.setI_mem, State.advance_i, State.setI_i, hm, hi, read_created_font table (by omega)]

theorem wellFormedImage_iff (bytes : List Byte) : wellFormedImage bytes = true ↔ bytes.length ≤ 3584 := decide_eq_true_iff

/-- Settles O60: an image that fits is a run of byte stores from 0x200 on; one that does not is refused whole. -/
theorem loadPlacesProgram : Obligations.LoadPlacesProgram := by
  intro bytes s hm
  refine ⟨fun hfit => ?_, fun hbig => ?_⟩
  · have hload : hostLoad bytes s = .ok (s.setMem (storeBytes .reject s.mem 0x200 bytes)) := by
      rw [hostLoad, if_pos ((wellFormedImage_iff bytes).2 hfit), loadBytes_eq_storeBytes]
    have hb : 0x200 + bytes.length ≤ 4096 := by omega
    refine ⟨_, hload, rfl, fun k hk => ?_, fun a ha => read_storeBytes_outside hm hb ha⟩
    rw [State.setMem_mem, read_storeBytes_at hm hb hk, List.getElem?_eq_getElem hk]
  · have hload : hostLoad bytes s = .programTooLarge bytes.length := by
      rw [hostLoad, if_neg fun h => absurd ((wellFormedImage_iff bytes).1 h) (by omega)]
    refine ⟨hload, ?_⟩
    rw [applyHostOp, applyHostOpWith, hload]

end Sys2Proof.Machine
end

section
/-! PROOFS. What no instruction reads cannot influence it (10_state.md sections 3 to 5 and 10). -/

namespace Sys2Proof.Machine

/-- `s` with other values in what no instruction but Dxyn reads: the framebuffer, the draw flag, ST, the last returned value, and the
stack as far as it is in use. -/
def withUnread (s : State) (g : Gfx) (d : Bool) (q : Byte) (r : StepResult) (k : Vector Word 16) : State :=
  { s with gfx := g, drawFlag := d, st := q, result := r, stack := k }

theorem vector_eq_of_reg_eq {s t : State} (h : RegsKept [] s t) : t.v = s.v := by
  refine Vector.ext fun k hk => ?_
  have hreg := h (BitVec.ofNat 4 k) List.not_mem_nil
  have hk' : (BitVec.ofNat 4 k).toNat = k := by rw [BitVec.toNat_ofNat, Nat.mod_eq_of_lt (by omega)]
  simpa only [State.reg, hk'] using hreg

/-- Of two states with canonical memories that agree, one is the other with unread values. -/
theorem eq_withUnread_of_agree {s s' : State} (hm : s.mem.wf = true) (hm' : s'.mem.wf = true) (h : AgreeOnRead s s') :
    s' = withUnread s s'.gfx s'.drawFlag s'.st s'.result s'.stack := by
  obtain ⟨hmem, hregs, hi, hpc, hsp, _, hdt, hrun, hkeys, hsupply, hdraws⟩ := h
  have hmem : s'.mem = s.mem := Memory.eq_of_read_eq hm' hm hmem
  have hv := vector_eq_of_reg_eq hregs
  rw [KeysKept] at hkeys
  obtain ⟨⟩ := s
  obtain ⟨⟩ := s'
  simp only at *
  subst hmem hv hi hpc hsp hdt hrun hkeys hsupply hdraws
  rfl

theorem agree_withUnread {s : State} {g : Gfx} {d : Bool} {q : Byte} {r : StepResult} {k : Vector Word 16}
    (hk : ∀ j : Fin 16, j.val < s.sp.val → k[j.val] = s.stack[j.val]) : AgreeOnRead s (withUnread s g d q r k) :=
  ⟨fun _ => rfl, fun _ _ => rfl, rfl, rfl, rfl, hk, rfl, rfl, rfl, rfl, rfl⟩

theorem agree_raiseFatal {s s' : State} (h : AgreeOnRead s s') (e : FatalError) :
    AgreeOnRead (raiseFatal e s) (raiseFatal e s') := by
  obtain ⟨hmem, hregs, hi, hpc, hsp, hstack, hdt, _, hkeys, hrand⟩ := h
  exact ⟨hmem, hregs, hi, hpc, hsp, hstack, hdt, rfl, hkeys, hrand⟩

/-- An instruction with data accesses raises the same error from two states that agree, or completes from both. -/
theorem agree_withCheckedData {p : DataOobPolicy} {addrs : List Nat} {ins : Instr} {s s' t t' u u' : State}
    (h : AgreeOnRead s s') (ht : AgreeOnRead t t') (hu : withCheckedData p addrs ins s t = .next u)
    (hu' : withCheckedData p addrs ins s' t' = .next u') : AgreeOnRead u u' := by
  obtain ⟨_, _, _, hpc, _⟩ := id h
  rw [withCheckedData] at hu hu'
  cases hcheck : checkData p addrs with
  | none =>
    rw [hcheck] at hu hu'
    cases hu
    cases hu'
    exact ht
  | some a =>
    rw [hcheck] at hu hu'
    cases hu
    cases hu'
    rw [hpc]
    exact agree_raiseFatal h _

theorem agree_advance {s s' : State} (h : AgreeOnRead s s') : AgreeOnRead s.advance s'.advance := by
  obtain ⟨hmem, hregs, hi, hpc, hrest⟩ := h
  exact ⟨hmem, hregs, hi, congrArg (· + 2) hpc, hrest⟩

/-- Fx65's loop reads memory, I and the registers. -/
theorem agree_loadRegs {s s' : State} (h : AgreeOnRead s s') (p : DataOobPolicy) (x : RegIdx) :
    AgreeOnRead (loadRegs p (x.toNat + 1) s) (loadRegs p (x.toNat + 1) s') := by
  obtain ⟨hmem, hregs, hi, hrest⟩ := h
  have hregs' : RegsKept [] (loadRegs p (x.toNat + 1) s) (loadRegs p (x.toNat + 1) s') := by
    intro r hr
    rw [reg_loadRegs p _ (by omega), reg_loadRegs p _ (by omega), hi, hmem, hregs r hr]
  rw [loadRegs_eq p _ s, loadRegs_eq p _ s'] at *
  exact ⟨hmem, hregs', hi, hrest⟩

/-- Stacks that agree below `n` agree below `n + 1` after the same push at `n`. -/
theorem set_agrees_below {k k' : Vector Word 16} {n : Nat} (hn : n < 16) (w : Word)
    (hk : ∀ j : Fin 16, j.val < n → k'[j.val] = k[j.val]) (j : Fin 16) (hj : j.val < n + 1) :
    (k'.set n w)[j.val] = (k.set n w)[j.val] := by
  simp only [Vector.getElem_set]
  split
  · rfl
  · exact hk j (by omega)

/-! ### The instructions, from `s` and from `s` with unread values -/

section
variable {s t t' : State} {g : Gfx} {d : Bool} {q : Byte} {r : StepResult} {k : Vector Word 16}
  (hk : ∀ j : Fin 16, j.val < s.sp.val → k[j.val] = s.stack[j.val])
include hk

/-- 00EE pops the same entry in use from both, or finds both stacks empty. -/
theorem exec_ret_agree (h : exec .ret s = .next t) (h' : exec .ret (withUnread s g d q r k) = .next t') :
    AgreeOnRead t t' := by
  rcases exec_ret_cases s with ⟨hsp, hx⟩ | ⟨hsp, hx⟩ <;>
    rcases exec_ret_cases (withUnread s g d q r k) with ⟨hsp', hx'⟩ | ⟨hsp', hx'⟩
  · cases hx.symm.trans h
    cases hx'.symm.trans h'
    have hlt : s.sp.val - 1 < s.sp.val := Nat.sub_lt hsp one_pos
    exact ⟨fun _ => rfl, fun _ _ => rfl, rfl, hk ⟨s.sp.val - 1, by omega⟩ hlt, rfl, fun j hj => hk j (hj.trans hlt),
      rfl, rfl, rfl, rfl, rfl⟩
  · exact absurd hsp' (Nat.ne_of_gt hsp)
  · exact absurd hsp (Nat.ne_of_gt hsp')
  · cases hx.symm.trans h
    cases hx'.symm.trans h'
    exact agree_raiseFatal (agree_withUnread hk) _

/-- 2nnn pushes the same word on both, or finds both stacks full. -/
theorem exec_call_agree {nnn : Address} (h : exec (.call nnn) s = .next t)
    (h' : exec (.call nnn) (withUnread s g d q r k) = .next t') : AgreeOnRead t t' := by
  rcases exec_call_cases nnn s with ⟨hsp, hx⟩ | ⟨hsp, hx⟩ <;>
    rcases exec_call_cases nnn (withUnread s g d q r k) with ⟨hsp', hx'⟩ | ⟨hsp', hx'⟩
  · cases hx.symm.trans h
    cases hx'.symm.trans h'
    exact agree_withUnread (set_agrees_below hsp (s.pc + 2) hk)
  · exact absurd hsp' (Nat.ne_of_lt hsp)
  · exact absurd hsp (Nat.ne_of_lt hsp')
  · cases hx.symm.trans h
    cases hx'.symm.trans h'
    exact agree_raiseFatal (agree_withUnread hk) _

/-- Fx0A finds the same lowest held key in both, or none in either. -/
theorem exec_ldVxK_agree {x : RegIdx} (h : exec (.ldVxK x) s = .next t)
    (h' : exec (.ldVxK x) (withUnread s g d q r k) = .next t') : AgreeOnRead t t' := by
  rcases exec_ldVxK_cases x s with ⟨j, hj, hjmin, hx⟩ | ⟨hnone, hx⟩ <;>
    rcases exec_ldVxK_cases x (withUnread s g d q r k) with ⟨j', hj', hjmin', hx'⟩ | ⟨hnone', hx'⟩
  · obtain rfl := lowest_held_unique (keys := s.keys) hj hj' hjmin hjmin'
    cases hx.symm.trans h
    cases hx'.symm.trans h'
    exact agree_withUnread hk
  · exact absurd hj (ne_true_of_eq_false (hnone' j))
  · exact absurd hj' (ne_true_of_eq_false (hnone j'))
  · cases hx.symm.trans h
    cases hx'.symm.trans h'
    exact agree_withUnread hk

/-- Every instruction leads to two states that agree; Dxyn does when the framebuffers are one. -/
theorem exec_agree {i : Instr} (hdrw : (∃ x y n, i = .drw x y n) → g = s.gfx) (h : exec i s = .next t)
    (h' : exec i (withUnread s g d q r k) = .next t') : AgreeOnRead t t' := by
  have hs : AgreeOnRead s (withUnread s g d q r k) := agree_withUnread hk
  cases i
  case ret => exact exec_ret_agree hk h h'
  case call => exact exec_call_agree hk h h'
  case ldVxK => exact exec_ldVxK_agree hk h h'
  case drw x y n =>
    obtain rfl := hdrw ⟨x, y, n, rfl⟩
    refine agree_withCheckedData hs ?_ h h'
    exact agree_withUnread hk
  case ldBVx | ldMemVx =>
    refine agree_withCheckedData hs ?_ h h'
    exact agree_withUnread hk
  case ldVxMem x => exact agree_withCheckedData hs (agree_advance (agree_loadRegs hs _ x)) h h'
  all_goals
    cases h
    cases h'
    exact agree_withUnread hk

end

/-- Settles O24: the second state is the first with unread values, and no instruction reads them. -/
theorem unreadStateHasNoInfluence : Obligations.UnreadStateHasNoInfluence := by
  intro i s s' t t' hm hm' hagree hdrw h h'
  obtain ⟨_, _, _, _, _, hstack, _⟩ := id hagree
  rw [eq_withUnread_of_agree hm hm' hagree] at h'
  exact exec_agree hstack hdrw h h'

end Sys2Proof.Machine
end
